-- ==== Sys2Proof/Word.lean ====
section
/-! DEFINITION. The word types of the block: a byte (every transfer is one byte wide, spec/20_memory.md R59, R61), the
7-bit bus address (R50), the 24-bit command word (spec/30_encoding.md R80), and the index of an image byte. -/

namespace Sys2Proof

/-- One byte: a register of 8 bits, a byte on the bus, an image byte. -/
abbrev Byte := BitVec 8

/-- A 7-bit slave address (R50, R51). -/
abbrev BusAddr := BitVec 7

/-- A command word `cmd[23:0]` (R36, R80). -/
abbrev CmdWord := BitVec 24

/-- An address of the image space, 0 to 18 (`IMG_LEN` = 19, R5, R32, R50); the same number is the clock chip's register
address of the byte it mirrors. -/
abbrev ImgIdx := Fin 19

end Sys2Proof
end

