-- ==== Sys2Proof/Config.lean ====
section
/-! DEFINITION. What a build fixes and what the spec leaves open: the parameters of spec/00_scope.md R5, the names of the
fields of spec/30_encoding.md R88, the bus history the slaves may depend on (spec/20_memory.md R52), and the free values
(opaque constants without a body: nothing can be proved of a value of theirs). -/

namespace Sys2Proof

/-- The 59 fields of the field table, in the order of their ids (R88). Where each lies is `Machine.fieldDesc` of the table `FT`. -/
inductive Field where
  | secOnes
  | secTens
  | minOnes
  | minTens
  | hrOnes
  | hrTens
  | hrPm
  | hr12
  | dow
  | dateOnes
  | dateTens
  | monOnes
  | monTens
  | century
  | yrOnes
  | yrTens
  | a1SecOnes
  | a1SecTens
  | a1M1
  | a1MinOnes
  | a1MinTens
  | a1M2
  | a1HrOnes
  | a1HrTens
  | a1HrPm
  | a1Hr12
  | a1M3
  | a1DdOnes
  | a1DdTens
  | a1Dydt
  | a1M4
  | a2MinOnes
  | a2MinTens
  | a2M2
  | a2HrOnes
  | a2HrTens
  | a2HrPm
  | a2Hr12
  | a2M3
  | a2DdOnes
  | a2DdTens
  | a2Dydt
  | a2M4
  | a1IE
  | a2IE
  | intcn
  | rs1
  | rs2
  | conv
  | bbsqw
  | eosc
  | a1F
  | a2F
  | bsy
  | en32K
  | osf
  | aging
  | tempInt
  | tempFrac
  deriving DecidableEq, Repr

/-- One phase that the Engine has completed on the bus, as the slaves saw it (R4, R52). -/
inductive BusEvent where
  /-- a START condition; `repeated` when a transaction was open -/
  | start (repeated : Bool)
  /-- an address byte, its direction, and whether the slave acknowledged it -/
  | addr (a : BusAddr) (read ack : Bool)
  /-- a data byte the master sent, and whether the slave acknowledged it -/
  | sent (d : Byte) (ack : Bool)
  /-- a data byte the master received, and whether the master acknowledged it -/
  | received (d : Byte) (ack : Bool)
  /-- a STOP condition -/
  | stop
  deriving DecidableEq, Repr

/-- Where a field lies: byte offset, least significant bit, width (spec/44_codec_fields.md R152). -/
structure FieldDesc where
  off : ImgIdx
  lsb : Nat
  width : Nat
  deriving DecidableEq, Repr, Inhabited

/-- A field table: one row per field id, in the order of the ids (R5, R88). -/
abbrev FieldTable := Vector FieldDesc 59

/-- The parameters of the block (R5). `IMG_LEN`, `CHIP_LO` and `CHIP_HI` are fixed; `DIV_CONST` is `Machine.divConst`. -/
structure Params where
  /-- `F_SYS` in Hz -/
  fSys : Nat
  /-- `F_BUS` in Hz -/
  fBus : Nat
  addrClock : BusAddr
  addrDisplay : BusAddr
  /-- reserved, used by no rule (R51, C6) -/
  addrStorage : BusAddr
  /-- `NACK_COMPLETES` (C1, R122, R123) -/
  nackCompletes : Bool
  /-- `FT`: the rules hold for every table whose fields each lie inside one byte (R5, R152; entry 18) -/
  ft : FieldTable
  deriving DecidableEq, Repr, Inhabited

namespace Config

/-- The build of the block: the open parameters of R5 (entry 4, DESIGN CHOICE: an uninterpreted constant). -/
opaque build : Params

/-- Whether the Engine's step, while it has one, is taken once no move is placed any more: the fairness that
spec/41_bus_phases.md R120 names and does not promise (entry 9). -/
opaque engineFair : Bool

/-- The n-th byte drawn, under no law: `draw(8)` (R7, R103, R40; entry 8). -/
opaque draw8 : Nat → Byte

/-- `SlaveAddrAck(a, r)` after this bus history (R52), under no law (entry 5). -/
opaque slaveAddrAck : List BusEvent → BusAddr → Bool → Bool

/-- `SlaveWriteAck(s, d)` after this bus history (R52), under no law (entry 5). -/
opaque slaveWriteAck : List BusEvent → BusAddr → Byte → Bool

/-- `SlaveReadByte(s, k)` after this bus history (R52), for bytes no rule gives (entries 5 and 7). -/
opaque slaveReadByte : List BusEvent → BusAddr → Bool → Byte

/-- The chip's pointer after a data byte moved with the pointer above 0x12 (R57, U13; entry 7). -/
opaque unmappedPtr : List BusEvent → Byte

/-- What `Chip[a]` holds after a byte was written with the pointer above 0x12: "any effect on `Chip[]`" (U13; entry 7). -/
opaque unmappedWrite : List BusEvent → Nat → Byte

end Config

end Sys2Proof
end

