-- ==== Sys2Proof/Syntax.lean ====
section
/-! DEFINITION. The commands of the block, one constructor per row of spec/opcode_table.json, in the table's order
(spec/30_encoding.md R89; GETF and SETF once for each field id of R88). Operands have the widths of R81 to R87. -/

namespace Sys2Proof

/-- A command on the command port (R36, R80). `read` is the direction bit: `true` is a read (R83). -/
inductive Instr where
  /-- INIT, R100. -/
  | init
  /-- ENABLE, R101. -/
  | enable
  /-- DISABLE, R102. -/
  | disable
  /-- STATUS, R103. -/
  | status
  /-- START, R111. -/
  | start
  /-- STOP, R112. -/
  | stop
  /-- WAIT, R113. -/
  | wait
  /-- WAITSTOP, R114. -/
  | waitstop
  /-- SETADDR, R115. -/
  | setaddr (addr : BusAddr) (read : Bool)
  /-- XFERADDR, R116. -/
  | xferaddr
  /-- SENDBYTE, R117. -/
  | sendbyte (d : Byte)
  /-- RECV, R118. -/
  | recv
  /-- RECVLAST, R119. -/
  | recvlast
  /-- BEGIN, R130. -/
  | beginXfer (addr : BusAddr) (read : Bool)
  /-- END, R131. -/
  | endXfer
  /-- REFRESH, R140. -/
  | refresh (start count : Byte)
  /-- COMMIT, R141. -/
  | commit (start count : Byte)
  | getfSecOnes
  | getfSecTens
  | getfMinOnes
  | getfMinTens
  | getfHrOnes
  | getfHrTens
  | getfHrPm
  | getfHr12
  | getfDow
  | getfDateOnes
  | getfDateTens
  | getfMonOnes
  | getfMonTens
  | getfCentury
  | getfYrOnes
  | getfYrTens
  | getfA1SecOnes
  | getfA1SecTens
  | getfA1M1
  | getfA1MinOnes
  | getfA1MinTens
  | getfA1M2
  | getfA1HrOnes
  | getfA1HrTens
  | getfA1HrPm
  | getfA1Hr12
  | getfA1M3
  | getfA1DdOnes
  | getfA1DdTens
  | getfA1Dydt
  | getfA1M4
  | getfA2MinOnes
  | getfA2MinTens
  | getfA2M2
  | getfA2HrOnes
  | getfA2HrTens
  | getfA2HrPm
  | getfA2Hr12
  | getfA2M3
  | getfA2DdOnes
  | getfA2DdTens
  | getfA2Dydt
  | getfA2M4
  | getfA1IE
  | getfA2IE
  | getfIntcn
  | getfRS1
  | getfRS2
  | getfConv
  | getfBbsqw
  | getfEosc
  | getfA1F
  | getfA2F
  | getfBsy
  | getfEN32K
  | getfOsf
  | getfAging
  | getfTempInt
  | getfTempFrac
  | setfSecOnes (v : Byte)
  | setfSecTens (v : Byte)
  | setfMinOnes (v : Byte)
  | setfMinTens (v : Byte)
  | setfHrOnes (v : Byte)
  | setfHrTens (v : Byte)
  | setfHrPm (v : Byte)
  | setfHr12 (v : Byte)
  | setfDow (v : Byte)
  | setfDateOnes (v : Byte)
  | setfDateTens (v : Byte)
  | setfMonOnes (v : Byte)
  | setfMonTens (v : Byte)
  | setfCentury (v : Byte)
  | setfYrOnes (v : Byte)
  | setfYrTens (v : Byte)
  | setfA1SecOnes (v : Byte)
  | setfA1SecTens (v : Byte)
  | setfA1M1 (v : Byte)
  | setfA1MinOnes (v : Byte)
  | setfA1MinTens (v : Byte)
  | setfA1M2 (v : Byte)
  | setfA1HrOnes (v : Byte)
  | setfA1HrTens (v : Byte)
  | setfA1HrPm (v : Byte)
  | setfA1Hr12 (v : Byte)
  | setfA1M3 (v : Byte)
  | setfA1DdOnes (v : Byte)
  | setfA1DdTens (v : Byte)
  | setfA1Dydt (v : Byte)
  | setfA1M4 (v : Byte)
  | setfA2MinOnes (v : Byte)
  | setfA2MinTens (v : Byte)
  | setfA2M2 (v : Byte)
  | setfA2HrOnes (v : Byte)
  | setfA2HrTens (v : Byte)
  | setfA2HrPm (v : Byte)
  | setfA2Hr12 (v : Byte)
  | setfA2M3 (v : Byte)
  | setfA2DdOnes (v : Byte)
  | setfA2DdTens (v : Byte)
  | setfA2Dydt (v : Byte)
  | setfA2M4 (v : Byte)
  | setfA1IE (v : Byte)
  | setfA2IE (v : Byte)
  | setfIntcn (v : Byte)
  | setfRS1 (v : Byte)
  | setfRS2 (v : Byte)
  | setfConv (v : Byte)
  | setfBbsqw (v : Byte)
  | setfEosc (v : Byte)
  | setfA1F (v : Byte)
  | setfA2F (v : Byte)
  | setfBsy (v : Byte)
  | setfEN32K (v : Byte)
  | setfOsf (v : Byte)
  | setfAging (v : Byte)
  | setfTempInt (v : Byte)
  | setfTempFrac (v : Byte)
  deriving DecidableEq, Repr

end Sys2Proof
end

