-- ==== Sys2Proof/Machine/Operands.lean ====
section
/-! DEFINITION. Operand forms: the six command formats (spec/30_encoding.md R81 to R86), the address byte (R83, R115), the
range of REFRESH and COMMIT (spec/20_memory.md R60), and the fields of an image byte (R88, spec/44_codec_fields.md R150 to
R152). Pure functions; no state. -/

namespace Sys2Proof

/-- The six formats, with the opcode and the operands each carries (R81 to R86). -/
inductive Fmt where
  | n (op : Byte)
  | b (op d : Byte)
  | a (op : Byte) (addr : BusAddr) (read : Bool)
  | r (op start count : Byte)
  | f (op : Byte) (field : Field)
  | s (op : Byte) (field : Field) (v : Byte)
  deriving DecidableEq, Repr

/-- The opcode map: each command's format and opcode (R89). -/
def Machine.fmtOf : Instr → Fmt
  | .init => .n 0x01
  | .enable => .n 0x02
  | .disable => .n 0x03
  | .status => .n 0x04
  | .start => .n 0x10
  | .stop => .n 0x11
  | .wait => .n 0x12
  | .waitstop => .n 0x13
  | .setaddr addr read => .a 0x14 addr read
  | .xferaddr => .n 0x15
  | .sendbyte d => .b 0x16 d
  | .recv => .n 0x17
  | .recvlast => .n 0x18
  | .beginXfer addr read => .a 0x20 addr read
  | .endXfer => .n 0x21
  | .refresh start count => .r 0x30 start count
  | .commit start count => .r 0x31 start count
  | .getfSecOnes => .f 0x40 .secOnes
  | .getfSecTens => .f 0x40 .secTens
  | .getfMinOnes => .f 0x40 .minOnes
  | .getfMinTens => .f 0x40 .minTens
  | .getfHrOnes => .f 0x40 .hrOnes
  | .getfHrTens => .f 0x40 .hrTens
  | .getfHrPm => .f 0x40 .hrPm
  | .getfHr12 => .f 0x40 .hr12
  | .getfDow => .f 0x40 .dow
  | .getfDateOnes => .f 0x40 .dateOnes
  | .getfDateTens => .f 0x40 .dateTens
  | .getfMonOnes => .f 0x40 .monOnes
  | .getfMonTens => .f 0x40 .monTens
  | .getfCentury => .f 0x40 .century
  | .getfYrOnes => .f 0x40 .yrOnes
  | .getfYrTens => .f 0x40 .yrTens
  | .getfA1SecOnes => .f 0x40 .a1SecOnes
  | .getfA1SecTens => .f 0x40 .a1SecTens
  | .getfA1M1 => .f 0x40 .a1M1
  | .getfA1MinOnes => .f 0x40 .a1MinOnes
  | .getfA1MinTens => .f 0x40 .a1MinTens
  | .getfA1M2 => .f 0x40 .a1M2
  | .getfA1HrOnes => .f 0x40 .a1HrOnes
  | .getfA1HrTens => .f 0x40 .a1HrTens
  | .getfA1HrPm => .f 0x40 .a1HrPm
  | .getfA1Hr12 => .f 0x40 .a1Hr12
  | .getfA1M3 => .f 0x40 .a1M3
  | .getfA1DdOnes => .f 0x40 .a1DdOnes
  | .getfA1DdTens => .f 0x40 .a1DdTens
  | .getfA1Dydt => .f 0x40 .a1Dydt
  | .getfA1M4 => .f 0x40 .a1M4
  | .getfA2MinOnes => .f 0x40 .a2MinOnes
  | .getfA2MinTens => .f 0x40 .a2MinTens
  | .getfA2M2 => .f 0x40 .a2M2
  | .getfA2HrOnes => .f 0x40 .a2HrOnes
  | .getfA2HrTens => .f 0x40 .a2HrTens
  | .getfA2HrPm => .f 0x40 .a2HrPm
  | .getfA2Hr12 => .f 0x40 .a2Hr12
  | .getfA2M3 => .f 0x40 .a2M3
  | .getfA2DdOnes => .f 0x40 .a2DdOnes
  | .getfA2DdTens => .f 0x40 .a2DdTens
  | .getfA2Dydt => .f 0x40 .a2Dydt
  | .getfA2M4 => .f 0x40 .a2M4
  | .getfA1IE => .f 0x40 .a1IE
  | .getfA2IE => .f 0x40 .a2IE
  | .getfIntcn => .f 0x40 .intcn
  | .getfRS1 => .f 0x40 .rs1
  | .getfRS2 => .f 0x40 .rs2
  | .getfConv => .f 0x40 .conv
  | .getfBbsqw => .f 0x40 .bbsqw
  | .getfEosc => .f 0x40 .eosc
  | .getfA1F => .f 0x40 .a1F
  | .getfA2F => .f 0x40 .a2F
  | .getfBsy => .f 0x40 .bsy
  | .getfEN32K => .f 0x40 .en32K
  | .getfOsf => .f 0x40 .osf
  | .getfAging => .f 0x40 .aging
  | .getfTempInt => .f 0x40 .tempInt
  | .getfTempFrac => .f 0x40 .tempFrac
  | .setfSecOnes v => .s 0x41 .secOnes v
  | .setfSecTens v => .s 0x41 .secTens v
  | .setfMinOnes v => .s 0x41 .minOnes v
  | .setfMinTens v => .s 0x41 .minTens v
  | .setfHrOnes v => .s 0x41 .hrOnes v
  | .setfHrTens v => .s 0x41 .hrTens v
  | .setfHrPm v => .s 0x41 .hrPm v
  | .setfHr12 v => .s 0x41 .hr12 v
  | .setfDow v => .s 0x41 .dow v
  | .setfDateOnes v => .s 0x41 .dateOnes v
  | .setfDateTens v => .s 0x41 .dateTens v
  | .setfMonOnes v => .s 0x41 .monOnes v
  | .setfMonTens v => .s 0x41 .monTens v
  | .setfCentury v => .s 0x41 .century v
  | .setfYrOnes v => .s 0x41 .yrOnes v
  | .setfYrTens v => .s 0x41 .yrTens v
  | .setfA1SecOnes v => .s 0x41 .a1SecOnes v
  | .setfA1SecTens v => .s 0x41 .a1SecTens v
  | .setfA1M1 v => .s 0x41 .a1M1 v
  | .setfA1MinOnes v => .s 0x41 .a1MinOnes v
  | .setfA1MinTens v => .s 0x41 .a1MinTens v
  | .setfA1M2 v => .s 0x41 .a1M2 v
  | .setfA1HrOnes v => .s 0x41 .a1HrOnes v
  | .setfA1HrTens v => .s 0x41 .a1HrTens v
  | .setfA1HrPm v => .s 0x41 .a1HrPm v
  | .setfA1Hr12 v => .s 0x41 .a1Hr12 v
  | .setfA1M3 v => .s 0x41 .a1M3 v
  | .setfA1DdOnes v => .s 0x41 .a1DdOnes v
  | .setfA1DdTens v => .s 0x41 .a1DdTens v
  | .setfA1Dydt v => .s 0x41 .a1Dydt v
  | .setfA1M4 v => .s 0x41 .a1M4 v
  | .setfA2MinOnes v => .s 0x41 .a2MinOnes v
  | .setfA2MinTens v => .s 0x41 .a2MinTens v
  | .setfA2M2 v => .s 0x41 .a2M2 v
  | .setfA2HrOnes v => .s 0x41 .a2HrOnes v
  | .setfA2HrTens v => .s 0x41 .a2HrTens v
  | .setfA2HrPm v => .s 0x41 .a2HrPm v
  | .setfA2Hr12 v => .s 0x41 .a2Hr12 v
  | .setfA2M3 v => .s 0x41 .a2M3 v
  | .setfA2DdOnes v => .s 0x41 .a2DdOnes v
  | .setfA2DdTens v => .s 0x41 .a2DdTens v
  | .setfA2Dydt v => .s 0x41 .a2Dydt v
  | .setfA2M4 v => .s 0x41 .a2M4 v
  | .setfA1IE v => .s 0x41 .a1IE v
  | .setfA2IE v => .s 0x41 .a2IE v
  | .setfIntcn v => .s 0x41 .intcn v
  | .setfRS1 v => .s 0x41 .rs1 v
  | .setfRS2 v => .s 0x41 .rs2 v
  | .setfConv v => .s 0x41 .conv v
  | .setfBbsqw v => .s 0x41 .bbsqw v
  | .setfEosc v => .s 0x41 .eosc v
  | .setfA1F v => .s 0x41 .a1F v
  | .setfA2F v => .s 0x41 .a2F v
  | .setfBsy v => .s 0x41 .bsy v
  | .setfEN32K v => .s 0x41 .en32K v
  | .setfOsf v => .s 0x41 .osf v
  | .setfAging v => .s 0x41 .aging v
  | .setfTempInt v => .s 0x41 .tempInt v
  | .setfTempFrac v => .s 0x41 .tempFrac v

namespace Machine

/-- The byte `{addr, dir}`: the address in bits 7:1, the direction in bit 0 (R83, R115). -/
def addressByte (addr : BusAddr) (read : Bool) : Byte := addr ++ BitVec.ofBool read

/-- `b[7:1]` of an address byte (R83, R122). -/
def addressOf (b : Byte) : BusAddr := b.extractLsb' 1 7

/-- `b[0]` of an address byte: 1 is a read (R83, R122). -/
def directionOf (b : Byte) : Bool := b.getLsbD 0

/-- A range is valid when `count ≥ 1` and `start + count ≤ 19`, the sum not wrapped (R60, R140). -/
def validRange (start count : Byte) : Bool := decide (1 ≤ count.toNat) && decide (start.toNat + count.toNat ≤ 19)

/-- The chip address and image index of byte `n` of a transfer (R59); `n` is below 19 in every valid range. -/
def imgIdx (n : Nat) : ImgIdx := Fin.ofNat 19 n

/-- The place of a field in the field table: its id (R88). -/
def fieldIndex : Field → Fin 59
  | .secOnes => 0
  | .secTens => 1
  | .minOnes => 2
  | .minTens => 3
  | .hrOnes => 4
  | .hrTens => 5
  | .hrPm => 6
  | .hr12 => 7
  | .dow => 8
  | .dateOnes => 9
  | .dateTens => 10
  | .monOnes => 11
  | .monTens => 12
  | .century => 13
  | .yrOnes => 14
  | .yrTens => 15
  | .a1SecOnes => 16
  | .a1SecTens => 17
  | .a1M1 => 18
  | .a1MinOnes => 19
  | .a1MinTens => 20
  | .a1M2 => 21
  | .a1HrOnes => 22
  | .a1HrTens => 23
  | .a1HrPm => 24
  | .a1Hr12 => 25
  | .a1M3 => 26
  | .a1DdOnes => 27
  | .a1DdTens => 28
  | .a1Dydt => 29
  | .a1M4 => 30
  | .a2MinOnes => 31
  | .a2MinTens => 32
  | .a2M2 => 33
  | .a2HrOnes => 34
  | .a2HrTens => 35
  | .a2HrPm => 36
  | .a2Hr12 => 37
  | .a2M3 => 38
  | .a2DdOnes => 39
  | .a2DdTens => 40
  | .a2Dydt => 41
  | .a2M4 => 42
  | .a1IE => 43
  | .a2IE => 44
  | .intcn => 45
  | .rs1 => 46
  | .rs2 => 47
  | .conv => 48
  | .bbsqw => 49
  | .eosc => 50
  | .a1F => 51
  | .a2F => 52
  | .bsy => 53
  | .en32K => 54
  | .osf => 55
  | .aging => 56
  | .tempInt => 57
  | .tempFrac => 58

/-- The fields in the order of their ids (R88). -/
def fieldOrder : List Field :=
    [.secOnes, .secTens, .minOnes, .minTens, .hrOnes, .hrTens, .hrPm, .hr12, .dow, .dateOnes, .dateTens,
    .monOnes, .monTens, .century, .yrOnes, .yrTens, .a1SecOnes, .a1SecTens, .a1M1, .a1MinOnes, .a1MinTens,
    .a1M2, .a1HrOnes, .a1HrTens, .a1HrPm, .a1Hr12, .a1M3, .a1DdOnes, .a1DdTens, .a1Dydt, .a1M4, .a2MinOnes,
    .a2MinTens, .a2M2, .a2HrOnes, .a2HrTens, .a2HrPm, .a2Hr12, .a2M3, .a2DdOnes, .a2DdTens, .a2Dydt, .a2M4,
    .a1IE, .a2IE, .intcn, .rs1, .rs2, .conv, .bbsqw, .eosc, .a1F, .a2F, .bsy, .en32K, .osf, .aging, .tempInt,
    .tempFrac]

/-- The rows of the field table as spec/30_encoding.md R88 gives them (entry 18). -/
def fieldLayout : Field → FieldDesc
  | .secOnes => ⟨0, 0, 4⟩
  | .secTens => ⟨0, 4, 3⟩
  | .minOnes => ⟨1, 0, 4⟩
  | .minTens => ⟨1, 4, 3⟩
  | .hrOnes => ⟨2, 0, 4⟩
  | .hrTens => ⟨2, 4, 2⟩
  | .hrPm => ⟨2, 5, 1⟩
  | .hr12 => ⟨2, 6, 1⟩
  | .dow => ⟨3, 0, 3⟩
  | .dateOnes => ⟨4, 0, 4⟩
  | .dateTens => ⟨4, 4, 2⟩
  | .monOnes => ⟨5, 0, 4⟩
  | .monTens => ⟨5, 4, 1⟩
  | .century => ⟨5, 7, 1⟩
  | .yrOnes => ⟨6, 0, 4⟩
  | .yrTens => ⟨6, 4, 4⟩
  | .a1SecOnes => ⟨7, 0, 4⟩
  | .a1SecTens => ⟨7, 4, 3⟩
  | .a1M1 => ⟨7, 7, 1⟩
  | .a1MinOnes => ⟨8, 0, 4⟩
  | .a1MinTens => ⟨8, 4, 3⟩
  | .a1M2 => ⟨8, 7, 1⟩
  | .a1HrOnes => ⟨9, 0, 4⟩
  | .a1HrTens => ⟨9, 4, 2⟩
  | .a1HrPm => ⟨9, 5, 1⟩
  | .a1Hr12 => ⟨9, 6, 1⟩
  | .a1M3 => ⟨9, 7, 1⟩
  | .a1DdOnes => ⟨10, 0, 4⟩
  | .a1DdTens => ⟨10, 4, 2⟩
  | .a1Dydt => ⟨10, 6, 1⟩
  | .a1M4 => ⟨10, 7, 1⟩
  | .a2MinOnes => ⟨11, 0, 4⟩
  | .a2MinTens => ⟨11, 4, 3⟩
  | .a2M2 => ⟨11, 7, 1⟩
  | .a2HrOnes => ⟨12, 0, 4⟩
  | .a2HrTens => ⟨12, 4, 2⟩
  | .a2HrPm => ⟨12, 5, 1⟩
  | .a2Hr12 => ⟨12, 6, 1⟩
  | .a2M3 => ⟨12, 7, 1⟩
  | .a2DdOnes => ⟨13, 0, 4⟩
  | .a2DdTens => ⟨13, 4, 2⟩
  | .a2Dydt => ⟨13, 6, 1⟩
  | .a2M4 => ⟨13, 7, 1⟩
  | .a1IE => ⟨14, 0, 1⟩
  | .a2IE => ⟨14, 1, 1⟩
  | .intcn => ⟨14, 2, 1⟩
  | .rs1 => ⟨14, 3, 1⟩
  | .rs2 => ⟨14, 4, 1⟩
  | .conv => ⟨14, 5, 1⟩
  | .bbsqw => ⟨14, 6, 1⟩
  | .eosc => ⟨14, 7, 1⟩
  | .a1F => ⟨15, 0, 1⟩
  | .a2F => ⟨15, 1, 1⟩
  | .bsy => ⟨15, 2, 1⟩
  | .en32K => ⟨15, 3, 1⟩
  | .osf => ⟨15, 7, 1⟩
  | .aging => ⟨16, 0, 8⟩
  | .tempInt => ⟨17, 0, 8⟩
  | .tempFrac => ⟨18, 6, 2⟩

/-- The table R88 gives, the value of the parameter `FT` in R5 (entry 18). -/
def fieldTable : FieldTable := ⟨(fieldOrder.map fieldLayout).toArray, rfl⟩

/-- The row of a field in a field table (R150, R151: `(off, lsb, w) <- FT[f]`). -/
def fieldDesc (ft : FieldTable) (f : Field) : FieldDesc := ft[fieldIndex f]

/-- A field lies inside one byte (R152); its offset is an image index by its type. -/
def fieldDescOk (d : FieldDesc) : Bool := decide (1 ≤ d.width) && decide (d.lsb + d.width ≤ 8)

/-- Every row of a table lies inside one byte (R152). -/
def fieldTableOk (ft : FieldTable) : Bool := ft.toList.all fieldDescOk

/-- The low `width` bits set: `2^w - 1` (R151). -/
def lowMask (width : Nat) : Byte := BitVec.ofNat 8 (2 ^ width - 1)

/-- The field's bits of a byte, right-aligned and zero-extended (R150). -/
def extractField (d : FieldDesc) (old : Byte) : Byte := (old >>> d.lsb) &&& lowMask d.width

/-- A byte with the field's bits replaced by `v`, the others kept (R151). -/
def insertField (d : FieldDesc) (old v : Byte) : Byte := (old &&& ~~~(lowMask d.width <<< d.lsb)) ||| (v <<< d.lsb)

/-- `v` fits the field: `v < 2^w` (R151). -/
def fitsField (d : FieldDesc) (v : Byte) : Bool := decide (v.toNat < 2 ^ d.width)

/-- `DIV_CONST` before it is narrowed to 8 bits: `(F_SYS / F_BUS - 16) / 2` (spec/70_reset_and_hazards.md R215); the
divisions are of natural numbers (entry 15, DEDUCED). -/
def divNat (p : Params) : Nat := (p.fSys / p.fBus - 16) / 2

/-- The 8-bit value INIT loads into `DIV` (R100, R215). -/
def divConst (p : Params) : Byte := BitVec.ofNat 8 (divNat p)

/-- What the clocks and the bus addresses of a build that exists satisfy: the conditions of R215 and the pairwise different
addresses of spec/00_scope.md R5. -/
def buildOk (p : Params) : Bool :=
  decide (0 < p.fBus) && decide (16 * p.fBus ≤ p.fSys) && decide (divNat p ≤ 255) &&
    (p.addrClock != p.addrDisplay) && (p.addrClock != p.addrStorage) && (p.addrDisplay != p.addrStorage)

/-- What the parameters of a build that exists satisfy: `buildOk`, and a field table of fields inside one byte (R5, R152). -/
def paramsOk (p : Params) : Bool := buildOk p && fieldTableOk p.ft

/-- The chip's pointer step: `next(p)` for p up to 0x12 (R57). -/
def nextPtr (p : Byte) : Byte := if p = 0x12 then 0x00 else p + 1

/-- The pointer is inside the chip's register map, 0x00 to 0x12 (R50, R57). -/
def mappedPtr (p : Byte) : Bool := decide (p.toNat ≤ 0x12)

end Machine

end Sys2Proof
end

