-- ==== Sys2Proof/WellFormed.lean ====
section
/-! DEFINITION. Well-formed commands: the checks the spec makes on operand VALUES that every encoding can carry. Operand
WIDTHS are in the types of `Instr`, so every term of `Instr` has a word; a term that is not well formed still decodes, and
its command faults with its own operand fault (spec/30_encoding.md R84, R86; entry 23). -/

namespace Sys2Proof

/-- The range of a REFRESH or COMMIT is valid (spec/20_memory.md R60) and the value of a SETF fits its field in
the field table of the build (spec/44_codec_fields.md R151). -/
def wellFormed (ft : FieldTable) (i : Instr) : Bool :=
  match Machine.fmtOf i with
  | .n _ => true
  | .b _ _ => true
  | .a _ _ _ => true
  | .r _ start count => Machine.validRange start count
  | .f _ _ => true
  | .s _ f v => Machine.fitsField (Machine.fieldDesc ft f) v

end Sys2Proof
end

