-- ==== Sys2Proof/Decode.lean ====
section
/-! DEFINITION. Decoding and encoding of the 24-bit command word (spec/30_encoding.md R80 to R90). `decode` is total and
rejects by name; `encode` is written from the same formats. -/

namespace Sys2Proof

/-- Why a word is illegal (R90). -/
inductive DecodeError where
  /-- `op` is none of the 19 opcodes -/
  | unknownOpcode (op : Byte)
  /-- an operand byte that the format requires to be 0x00 is not -/
  | operandNotZero (op : Byte)
  /-- a field id above 58 -/
  | reservedField (id : Byte)
  deriving DecidableEq, Repr

/-- `cmd[23:16]` (R80). -/
def opByte (w : CmdWord) : Byte := w.extractLsb' 16 8
/-- `cmd[15:8]` (R80). -/
def aByte (w : CmdWord) : Byte := w.extractLsb' 8 8
/-- `cmd[7:0]` (R80). -/
def bByte (w : CmdWord) : Byte := w.extractLsb' 0 8
/-- The word of the three bytes `op`, `a`, `b` (R80). -/
def packWord (op a b : Byte) : CmdWord := op ++ a ++ b

/-- The field id (R88). -/
def fieldId (f : Field) : Byte := BitVec.ofNat 8 (Machine.fieldIndex f).val

/-- The field of an id, none for a reserved id (R88, R90). -/
def fieldOfId (id : Byte) : Option Field := Machine.fieldOrder[id.toNat]?

/-- The GETF command of a field (R85). -/
def getfOf : Field → Instr
  | .secOnes => .getfSecOnes
  | .secTens => .getfSecTens
  | .minOnes => .getfMinOnes
  | .minTens => .getfMinTens
  | .hrOnes => .getfHrOnes
  | .hrTens => .getfHrTens
  | .hrPm => .getfHrPm
  | .hr12 => .getfHr12
  | .dow => .getfDow
  | .dateOnes => .getfDateOnes
  | .dateTens => .getfDateTens
  | .monOnes => .getfMonOnes
  | .monTens => .getfMonTens
  | .century => .getfCentury
  | .yrOnes => .getfYrOnes
  | .yrTens => .getfYrTens
  | .a1SecOnes => .getfA1SecOnes
  | .a1SecTens => .getfA1SecTens
  | .a1M1 => .getfA1M1
  | .a1MinOnes => .getfA1MinOnes
  | .a1MinTens => .getfA1MinTens
  | .a1M2 => .getfA1M2
  | .a1HrOnes => .getfA1HrOnes
  | .a1HrTens => .getfA1HrTens
  | .a1HrPm => .getfA1HrPm
  | .a1Hr12 => .getfA1Hr12
  | .a1M3 => .getfA1M3
  | .a1DdOnes => .getfA1DdOnes
  | .a1DdTens => .getfA1DdTens
  | .a1Dydt => .getfA1Dydt
  | .a1M4 => .getfA1M4
  | .a2MinOnes => .getfA2MinOnes
  | .a2MinTens => .getfA2MinTens
  | .a2M2 => .getfA2M2
  | .a2HrOnes => .getfA2HrOnes
  | .a2HrTens => .getfA2HrTens
  | .a2HrPm => .getfA2HrPm
  | .a2Hr12 => .getfA2Hr12
  | .a2M3 => .getfA2M3
  | .a2DdOnes => .getfA2DdOnes
  | .a2DdTens => .getfA2DdTens
  | .a2Dydt => .getfA2Dydt
  | .a2M4 => .getfA2M4
  | .a1IE => .getfA1IE
  | .a2IE => .getfA2IE
  | .intcn => .getfIntcn
  | .rs1 => .getfRS1
  | .rs2 => .getfRS2
  | .conv => .getfConv
  | .bbsqw => .getfBbsqw
  | .eosc => .getfEosc
  | .a1F => .getfA1F
  | .a2F => .getfA2F
  | .bsy => .getfBsy
  | .en32K => .getfEN32K
  | .osf => .getfOsf
  | .aging => .getfAging
  | .tempInt => .getfTempInt
  | .tempFrac => .getfTempFrac

/-- The SETF command of a field and a value (R86). -/
def setfOf (v : Byte) : Field → Instr
  | .secOnes => .setfSecOnes v
  | .secTens => .setfSecTens v
  | .minOnes => .setfMinOnes v
  | .minTens => .setfMinTens v
  | .hrOnes => .setfHrOnes v
  | .hrTens => .setfHrTens v
  | .hrPm => .setfHrPm v
  | .hr12 => .setfHr12 v
  | .dow => .setfDow v
  | .dateOnes => .setfDateOnes v
  | .dateTens => .setfDateTens v
  | .monOnes => .setfMonOnes v
  | .monTens => .setfMonTens v
  | .century => .setfCentury v
  | .yrOnes => .setfYrOnes v
  | .yrTens => .setfYrTens v
  | .a1SecOnes => .setfA1SecOnes v
  | .a1SecTens => .setfA1SecTens v
  | .a1M1 => .setfA1M1 v
  | .a1MinOnes => .setfA1MinOnes v
  | .a1MinTens => .setfA1MinTens v
  | .a1M2 => .setfA1M2 v
  | .a1HrOnes => .setfA1HrOnes v
  | .a1HrTens => .setfA1HrTens v
  | .a1HrPm => .setfA1HrPm v
  | .a1Hr12 => .setfA1Hr12 v
  | .a1M3 => .setfA1M3 v
  | .a1DdOnes => .setfA1DdOnes v
  | .a1DdTens => .setfA1DdTens v
  | .a1Dydt => .setfA1Dydt v
  | .a1M4 => .setfA1M4 v
  | .a2MinOnes => .setfA2MinOnes v
  | .a2MinTens => .setfA2MinTens v
  | .a2M2 => .setfA2M2 v
  | .a2HrOnes => .setfA2HrOnes v
  | .a2HrTens => .setfA2HrTens v
  | .a2HrPm => .setfA2HrPm v
  | .a2Hr12 => .setfA2Hr12 v
  | .a2M3 => .setfA2M3 v
  | .a2DdOnes => .setfA2DdOnes v
  | .a2DdTens => .setfA2DdTens v
  | .a2Dydt => .setfA2Dydt v
  | .a2M4 => .setfA2M4 v
  | .a1IE => .setfA1IE v
  | .a2IE => .setfA2IE v
  | .intcn => .setfIntcn v
  | .rs1 => .setfRS1 v
  | .rs2 => .setfRS2 v
  | .conv => .setfConv v
  | .bbsqw => .setfBbsqw v
  | .eosc => .setfEosc v
  | .a1F => .setfA1F v
  | .a2F => .setfA2F v
  | .bsy => .setfBsy v
  | .en32K => .setfEN32K v
  | .osf => .setfOsf v
  | .aging => .setfAging v
  | .tempInt => .setfTempInt v
  | .tempFrac => .setfTempFrac v

/-- The word of a format (R81 to R86): unused operand bytes are 0x00. -/
def wordOf : Fmt → CmdWord
  | .n op => packWord op 0 0
  | .b op d => packWord op 0 d
  | .a op addr read => packWord op 0 (Machine.addressByte addr read)
  | .r op start count => packWord op start count
  | .f op field => packWord op (fieldId field) 0
  | .s op field v => packWord op (fieldId field) v

/-- The word of a command. -/
def encode (i : Instr) : CmdWord := wordOf (Machine.fmtOf i)

/-- Format N: both operand bytes must be 0x00 (R81, R90). -/
def decodeN (w : CmdWord) (i : Instr) : Except DecodeError Instr :=
  if aByte w = 0 ∧ bByte w = 0 then .ok i else .error (.operandNotZero (opByte w))

/-- Formats B and A: `a` must be 0x00 and `b` is the operand byte (R82, R83, R90). -/
def decodeB (w : CmdWord) (i : Byte → Instr) : Except DecodeError Instr :=
  if aByte w = 0 then .ok (i (bByte w)) else .error (.operandNotZero (opByte w))

/-- Format F: a field id in `a`, `b` must be 0x00 (R85, R90). -/
def decodeF (w : CmdWord) : Except DecodeError Instr :=
  if bByte w = 0 then
    match fieldOfId (aByte w) with
    | some f => .ok (getfOf f)
    | none => .error (.reservedField (aByte w))
  else .error (.operandNotZero (opByte w))

/-- Format S: a field id in `a`, any value in `b` (R86, R90). -/
def decodeS (w : CmdWord) : Except DecodeError Instr :=
  match fieldOfId (aByte w) with
  | some f => .ok (setfOf (bByte w) f)
  | none => .error (.reservedField (aByte w))

/-- The decoder: the 19 opcodes of R89, everything else illegal (R90). -/
def decode (w : CmdWord) : Except DecodeError Instr :=
  match (opByte w).toNat with
  | 0x01 => decodeN w .init
  | 0x02 => decodeN w .enable
  | 0x03 => decodeN w .disable
  | 0x04 => decodeN w .status
  | 0x10 => decodeN w .start
  | 0x11 => decodeN w .stop
  | 0x12 => decodeN w .wait
  | 0x13 => decodeN w .waitstop
  | 0x14 => decodeB w (fun b => .setaddr (Machine.addressOf b) (Machine.directionOf b))
  | 0x15 => decodeN w .xferaddr
  | 0x16 => decodeB w .sendbyte
  | 0x17 => decodeN w .recv
  | 0x18 => decodeN w .recvlast
  | 0x20 => decodeB w (fun b => .beginXfer (Machine.addressOf b) (Machine.directionOf b))
  | 0x21 => decodeN w .endXfer
  | 0x30 => .ok (.refresh (aByte w) (bByte w))
  | 0x31 => .ok (.commit (aByte w) (bByte w))
  | 0x40 => decodeF w
  | 0x41 => decodeS w
  | _ => .error (.unknownOpcode (opByte w))

/-- The command the decoder reads from the `nbits` low bits of `w` as one 24-bit command word, every bit above `nbits`
zero. A command has 24 bits (R80), so a longer row is none. -/
def decodeTableWord (nbits w : Nat) : Option Instr :=
  if nbits ≤ 24 then
    match decode (BitVec.ofNat 24 (w % 2 ^ nbits)) with
    | .ok i => some i
    | .error _ => none
  else none

end Sys2Proof
end

