-- ==== Sys2Proof/Machine/Memory.lean ====
section
/-! DEFINITION. The two byte spaces of the machine, the RegisterImage `IMG[0..18]` and the clock chip's registers
`Chip[0x00..0x12]` (spec/20_memory.md R50): a list of (address, byte) pairs (`Host.Cell`) in one canonical form. An address that is not
listed reads 0x00 (entry 19). -/

namespace Sys2Proof.Machine

/-- A space of bytes: addresses strictly rising, no entry equal to what an unlisted address reads as (`Memory.wf`). -/
abbrev Memory := List Host.Cell

/-- What an address that is not listed reads as (entries 1, 3 and 19, DESIGN CHOICE). -/
def Memory.unlisted : Byte := 0x00

/-- The byte at an address. -/
def Memory.read : Memory → Nat → Byte
  | [], _ => Memory.unlisted
  | c :: m, a => if c.1 = a then c.2 else Memory.read m a

/-- The memory without an entry for `a`. -/
def Memory.erase (m : Memory) (a : Nat) : Memory := m.filter (fun c => c.1 != a)

/-- The memory with a new entry before the first larger address. -/
def Memory.insert (a : Nat) (v : Byte) : Memory → Memory
  | [] => [(a, v)]
  | c :: m => if a < c.1 then (a, v) :: c :: m else c :: Memory.insert a v m

/-- A write of one byte; writing the value an unlisted address reads as removes the entry. -/
def Memory.write (m : Memory) (a : Nat) (v : Byte) : Memory :=
  if v = Memory.unlisted then m.erase a else (m.erase a).insert a v

/-- The canonical form of the part of a memory from address `lo` on. -/
def Memory.wfFrom : Nat → Memory → Bool
  | _, [] => true
  | lo, c :: m => decide (lo ≤ c.1) && decide (c.1 < 19) && (c.2 != Memory.unlisted) && Memory.wfFrom (c.1 + 1) m

/-- The canonical form: addresses strictly rising within 0 to 18, no entry equal to what an unlisted address reads as. -/
def Memory.wf (m : Memory) : Bool := Memory.wfFrom 0 m

/-- The memory whose bytes at 0 to 18 are `f 0` to `f 18`. -/
def Memory.ofBytes (f : Nat → Byte) : Memory := (List.range 19).foldl (fun m a => m.write a (f a)) []

end Sys2Proof.Machine
end

