-- ==== Sys2Proof/Machine/State.lean ====
section
/-! DEFINITION. The state of the machine as plain data: the block's own elements (spec/10_state.md R20 to R34), the
environment the block's rules need (spec/20_memory.md R52 to R57), and the model's own fields (the parameters, the moves
still to come, the Engine's fairness, the command in progress, the draw counter). INVENTORY.md lists each with its rule and reset value. -/

namespace Sys2Proof.Machine

/-- The phases `PEND` can hold besides `None` (R28). -/
inductive Phase where
  | start
  | addr
  | tx
  | rxAck
  | rxNack
  | stop
  deriving DecidableEq, Repr

/-- Where the current transaction stands (R29). -/
inductive BusState where
  | idle
  | started
  | mt
  | mr
  | mrLast
  | nacked
  deriving DecidableEq, Repr

/-- One answer of the slaves to one question of the Engine (R52): the acknowledge bit of an address or sent byte, or the
byte a slave sends. -/
structure Reply where
  ack : Bool
  data : Byte
  deriving DecidableEq, Repr

/-- One move of an agent other than the blocked command itself (spec/00_scope.md R9; entry 9). -/
inductive Event where
  /-- the host presents a command word on the command port (R36) -/
  | cmd (w : CmdWord)
  /-- the Engine takes its step, if it has one (R120) -/
  | engine
  /-- the clock chip changes one of its own registers (R58) -/
  | chipTime (a : ImgIdx) (v : Byte)
  /-- time passes and no agent moves (R120: the time to a completion is unbounded) -/
  | idle
  /-- the reset input is 1 (R39, R200): with the slaves (`slaves`, power-on) or of the block alone (the warning of R40) -/
  | rst (slaves : Bool)
  deriving DecidableEq, Repr

/-- One step of the expansion of a command (R133); a command that blocks keeps the steps it has still to perform. -/
inductive Micro where
  | start
  | stop
  | setAddr (addr : BusAddr) (read : Bool)
  | xferAddr
  | sendByte (d : Byte)
  /-- SENDBYTE of the image byte `IMG[i]` as it is then (R141) -/
  | sendImage (i : ImgIdx)
  /-- the issue of RECV (R118) -/
  | recv
  /-- the issue of RECVLAST (R119) -/
  | recvLast
  /-- the `EN` check of WAIT and WAITSTOP (R113, R114) -/
  | requireEnabled (cmd : Instr)
  /-- `await DONE = 1` -/
  | awaitDone
  /-- `await STOPREQ = 0` -/
  | awaitStop
  /-- `IMG[i] <- DATA`, the byte a RECV or RECVLAST of a REFRESH returned (R140) -/
  | storeData (i : ImgIdx)
  /-- `return DATA` (R118, R119) -/
  | respondData
  deriving DecidableEq, Repr

/-- The state. -/
structure State where
  /-- `DATA` (R21) -/
  data : Byte
  /-- `ACKEN` (R22) -/
  acken : Bool
  /-- `DONE` (R23) -/
  done : Bool
  /-- `STOPREQ` (R24) -/
  stopreq : Bool
  /-- `EN` (R25) -/
  en : Bool
  /-- `DIV` (R26) -/
  div : Byte
  /-- `STATUS` (R27) -/
  status : Byte
  /-- `PEND` (R28); `none` is `None` -/
  pend : Option Phase
  /-- `BUS` (R29) -/
  bus : BusState
  /-- `SEL` (R30) -/
  sel : BusAddr
  /-- `WEDGED` (R31) -/
  wedged : Bool
  /-- `IMG[0..18]` (R32) -/
  img : Memory
  /-- the response port: the byte of a command that completed in this step, `none` while `rsp_valid` is 0 (R37) -/
  rsp : Option Byte
  /-- environment: `Chip[0x00..0x12]` (R53, R54) -/
  chip : Memory
  /-- environment: the chip's address pointer `PTR` (R53) -/
  ptr : Byte
  /-- environment: the next data byte written to the chip is its address pointer (R55) -/
  chipPtrNext : Bool
  /-- environment: the completed phases, the latest first (R52) -/
  history : List BusEvent
  /-- environment: the answers the slaves are going to give; when it is empty, Config's oracle answers (R52; entry 5) -/
  replies : List Reply
  /-- model: the parameters of the block, written by no step (R5; entry 4) -/
  params : Params
  /-- model: the moves of the agents still to come, the next first (R9; entry 9) -/
  agenda : List Event
  /-- model: the rest of the command in progress; `cmd_ready` is 1 when it is empty (R36, R133; entry 10) -/
  todo : List Micro
  /-- model: once the agenda has no move of another agent first, an Engine step that is there is taken (`true`), or never
  (`false`), the fifth hang of R184; written by no step (R120; entry 9) -/
  fair : Bool
  /-- model: how many free values have been drawn (R7; entry 8) -/
  draws : Nat
  deriving DecidableEq, Repr

/-- The verdicts of the model (R181): each says that the spec gives the use no meaning, and each is safe: the hardware has
no such signal and goes on somehow, of which the model says nothing (R182, D15). -/
inductive Fault where
  /-- code 1, raised by the decoder for a word that is no legal encoding (R90); records the word; safe -/
  | illegalCommand (w : CmdWord)
  /-- code 2, raised by STATUS, WAIT, WAITSTOP and every bus command when `EN = 0` (R103, R110, R113, R114); records the
  command; safe -/
  | disabled (cmd : Instr)
  /-- code 3, raised by INIT, DISABLE and every bus command while a phase is pending or a stop in progress, by INIT and
  DISABLE also while a transaction is open (R100, R102, R110); records the command and `PEND`; safe -/
  | busyViolation (cmd : Instr) (pend : Option Phase)
  /-- code 4, raised by a phase command in a `BUS` state that R128 marks "fault"; records the command and `BUS`; safe -/
  | phaseOrder (cmd : Instr) (bus : BusState)
  /-- code 5, raised by REFRESH and COMMIT for an invalid range (R60); records the range; safe -/
  | rangeError (start count : Byte)
  /-- code 6, raised by SETF for a value that does not fit (R151); records the field and the value; safe -/
  | fieldValueError (f : Field) (v : Byte)
  deriving DecidableEq, Repr

/-- Why an instruction has no meaning in this model. -/
inductive Refusal where
  /-- an arm of the dispatch without a meaning; no arm of this model is one; safe -/
  | notModelled (mnemonic : String)
  deriving DecidableEq, Repr

/-- A build that satisfies `paramsOk`, standing in where `Config.build` does not ("a build that breaks either does not
exist", R215); the numbers carry no meaning. -/
def someBuild : Params := ⟨16, 1, 0, 1, 2, true, fieldTable⟩

/-- The parameters of the machine at reset: any build that exists, with `NACK_COMPLETES` and `FT` at the values
spec/00_scope.md R5 gives them, true and the table of R88 (entries 4 and 18). -/
def resetParams : Params :=
  { (if buildOk Config.build then Config.build else someBuild) with nackCompletes := true, ft := fieldTable }

/-- The machine right after a power-on reset (R40, R200). `DATA`, `SEL` and the image are unspecified there: entry 1. The
environment and the model's own fields: entries 3, 4, 8, 9, 10. -/
def State.reset : State where
  data := 0
  acken := false
  done := false
  stopreq := false
  en := false
  div := 0x00
  status := 0xF8
  pend := none
  bus := .idle
  sel := 0
  wedged := false
  img := []
  rsp := none
  chip := []
  ptr := 0
  chipPtrNext := false
  history := []
  replies := []
  params := resetParams
  agenda := []
  todo := []
  fair := Config.engineFair
  draws := 0

end Sys2Proof.Machine
end

