-- ==== Sys2Proof/Machine/Flags.lean ====
section
/-! DEFINITION. The status field and the legality table: the status codes by name and number (spec/10_state.md R27), the
code each completion writes (spec/41_bus_phases.md R121 to R126), and the table R128 of the phases that a `BUS` state
admits. -/

namespace Sys2Proof.Machine

/-- The eleven status codes by name (R27). -/
inductive StatusName where
  | start | rstart | awAck | awNack | dwAck | dwNack | arAck | arNack | drAck | drNack | none
  deriving DecidableEq, Repr

/-- The numbers of the status codes (R27). -/
def statusCode : StatusName → Byte
  | .start => 0x08
  | .rstart => 0x10
  | .awAck => 0x18
  | .awNack => 0x20
  | .dwAck => 0x28
  | .dwNack => 0x30
  | .arAck => 0x40
  | .arNack => 0x48
  | .drAck => 0x50
  | .drNack => 0x58
  | .none => 0xF8

/-- The code a START writes: first or repeated (R121). -/
def startStatus (b : BusState) : StatusName := if b = .idle then .start else .rstart

/-- The code an address phase writes (R122). -/
def addrStatus (read ack : Bool) : StatusName :=
  match read, ack with
  | true, true => .arAck
  | true, false => .arNack
  | false, true => .awAck
  | false, false => .awNack

/-- The code a receive phase writes, by the acknowledge bit the master returned (R124, R125). -/
def rxStatus (ack : Bool) : StatusName := if ack then .drAck else .drNack

/-- What a phase command does in a `BUS` state: issue the phase, issue it and wedge, or fault (R128). -/
inductive Legality where
  | ok
  | wedge
  | fault
  deriving DecidableEq, Repr

/-- The table of R128, by the phase the command issues (START, XFERADDR, SENDBYTE, RECV, RECVLAST, STOP). -/
def legality : Phase → BusState → Legality
  | .start, .started => .fault
  | .start, .mr => .wedge
  | .start, _ => .ok
  | .addr, .started => .ok
  | .addr, _ => .fault
  | .tx, .mt => .ok
  | .tx, .nacked => .wedge
  | .tx, _ => .fault
  | .rxAck, .mr => .ok
  | .rxAck, .nacked => .wedge
  | .rxAck, _ => .fault
  | .rxNack, .mr => .ok
  | .rxNack, .nacked => .wedge
  | .rxNack, _ => .fault
  | .stop, .idle => .fault
  | .stop, .started => .fault
  | .stop, .mr => .wedge
  | .stop, _ => .ok

end Sys2Proof.Machine
end

