-- ==== Sys2Proof/Machine/Environment.lean ====
section
/-! DEFINITION. The slaves on the bus (spec/20_memory.md R51 to R58): the three questions of the Engine, the reference clock
chip, and the clock chip's own changes. None of these touches an element of the block. -/

namespace Sys2Proof.Machine

/-- The selected slave is the clock chip (R30, R53). -/
def State.clockSelected (s : State) : Bool := s.sel == s.params.addrClock

/-- The Engine has had one answer from the stored ones (entry 5). -/
def State.dropReply (s : State) : State := { s with replies := s.replies.tail }

/-- A phase has been seen on the bus (R52). -/
def State.saw (s : State) (e : BusEvent) : State := { s with history := e :: s.history }

/-- `SlaveAddrAck(a, r)`: whether the slave acknowledges (R52, R53). -/
def addrAnswer (s : State) (a : BusAddr) (read : Bool) : Bool :=
  match s.replies with
  | r :: _ => r.ack
  | [] => Config.slaveAddrAck s.history a read

/-- The environment after the address phase: the chip addressed for writing takes the next byte as its pointer (R55). -/
def addrAsked (s : State) (a : BusAddr) (read ack : Bool) : State :=
  { (s.dropReply.saw (.addr a read ack)) with chipPtrNext := ack && !read && (a == s.params.addrClock) }

/-- `SlaveWriteAck(SEL, d)`: whether the selected slave acknowledges (R52, R55). -/
def writeAnswer (s : State) (d : Byte) : Bool :=
  match s.replies with
  | r :: _ => r.ack
  | [] => Config.slaveWriteAck s.history s.sel d

/-- The clock chip takes an acknowledged data byte: as its pointer if it is the first of the write transaction, otherwise
into `Chip[PTR]` (R55, R57); above 0x12 the effect is free (U13; entry 7). -/
def chipTakes (s : State) (d : Byte) : State :=
  if s.chipPtrNext then { s with ptr := d, chipPtrNext := false }
  else if mappedPtr s.ptr then { s with chip := s.chip.write s.ptr.toNat d, ptr := nextPtr s.ptr }
  else { s with chip := Memory.ofBytes (Config.unmappedWrite s.history), ptr := Config.unmappedPtr s.history }

/-- The environment after a data byte was sent; a byte that is not acknowledged has no effect on the chip (entry 6). -/
def writeAsked (s : State) (d : Byte) (ack : Bool) : State :=
  let s1 := if ack && s.clockSelected then chipTakes s d else s
  s1.dropReply.saw (.sent d ack)

/-- The byte of a slave the spec gives no law for: other slaves (U20), or the chip with its pointer above 0x12 (U13). -/
def freeByte (s : State) (ack : Bool) : Byte :=
  match s.replies with
  | r :: _ => r.data
  | [] => Config.slaveReadByte s.history s.sel ack

/-- `SlaveReadByte(SEL, k)`: `Chip[PTR]` from the clock chip (R56), otherwise a free byte (R52). -/
def readAnswer (s : State) (ack : Bool) : Byte :=
  if s.clockSelected && mappedPtr s.ptr then s.chip.read s.ptr.toNat else freeByte s ack

/-- The environment after a byte was received: the chip steps its pointer whether the master answered ACK or NACK (R56). -/
def readAsked (s : State) (ack : Bool) : State :=
  let s1 :=
    if s.clockSelected then
      if mappedPtr s.ptr then { s with ptr := nextPtr s.ptr }
      else { s.dropReply with ptr := Config.unmappedPtr s.history }
    else s.dropReply
  s1.saw (.received (readAnswer s ack) ack)

/-- The clock chip changes one of its own registers (R58; entry 20). -/
def chipTimeMove (a : ImgIdx) (v : Byte) (s : State) : State := { s with chip := s.chip.write a.val v }

end Sys2Proof.Machine
end

