-- ==== Sys2Proof/Machine/Engine.lean ====
section
/-! DEFINITION. The Engine agent: the completion of a pending phase (spec/41_bus_phases.md R120 to R126). -/

namespace Sys2Proof.Machine

/-- The Engine has a step exactly when `EN = 1`, `PEND` is not `None` and `WEDGED = 0` (R120). -/
def engineReady (s : State) : Bool := s.en && s.pend.isSome && !s.wedged

/-- A phase other than STOP completes with a status code and a bus state (R121 to R125). -/
def State.completeWith (s : State) (c : StatusName) (b : BusState) : State :=
  { s with status := statusCode c, bus := b, done := true, pend := none }

/-- A phase the slave answered with NACK: it completes with the NACK code when `NACK_COMPLETES`, otherwise it wedges with
no other write (R122, R123, C1). -/
def State.completeNacked (s : State) (c : StatusName) : State :=
  if s.params.nackCompletes then s.completeWith c .nacked else { s with wedged := true }

/-- Completion of START (R121); a START ends the chip's write part (R55). -/
def completeStart (s : State) : State :=
  { (s.saw (.start (s.bus != BusState.idle))) with chipPtrNext := false }.completeWith (startStatus s.bus) .started

/-- Completion of the address phase (R122). -/
def completeAddr (s : State) : State :=
  let a := addressOf s.data
  let r := directionOf s.data
  if addrAnswer s a r then
    { (addrAsked s a r true) with sel := a }.completeWith (addrStatus r true) (if r then .mr else .mt)
  else (addrAsked s a r false).completeNacked (addrStatus r false)

/-- Completion of a transmitted byte (R123). -/
def completeTx (s : State) : State :=
  if writeAnswer s s.data then (writeAsked s s.data true).completeWith .dwAck s.bus
  else (writeAsked s s.data false).completeNacked .dwNack

/-- Completion of a received byte, answered ACK (R124) or NACK (R125). -/
def completeRx (ack : Bool) (s : State) : State :=
  { (readAsked s ack) with data := readAnswer s ack }.completeWith (rxStatus ack) (if ack then s.bus else .mrLast)

/-- Completion of STOP: `DONE` is not written (R126); a STOP ends the chip's write part (R55). -/
def completeStop (s : State) : State :=
  { (s.saw .stop) with
    chipPtrNext := false, bus := .idle, stopreq := false, status := statusCode .none, pend := none }

/-- Completion of a phase by its kind. -/
def completePhase : Phase → State → State
  | .start, s => completeStart s
  | .addr, s => completeAddr s
  | .tx, s => completeTx s
  | .rxAck, s => completeRx true s
  | .rxNack, s => completeRx false s
  | .stop, s => completeStop s

/-- The Engine's step, where it has one; otherwise nothing changes (R120). -/
def engineStep (s : State) : State :=
  if engineReady s then
    match s.pend with
    | some p => completePhase p s
    | none => s
  else s

/-- The Engine's move when no agent's move is placed before it: its step where the Engine is fair, none where its step is
never taken (R120; spec/60_exceptions.md R184, "a phase that the bus never completes"; entry 9). -/
def dueStep (s : State) : State := if s.fair then engineStep s else s

end Sys2Proof.Machine
end

