-- ==== Sys2Proof/Machine/Ops.lean ====
section
/-! DEFINITION. The shared operations of the commands: the precondition and the issue of a phase (spec/41_bus_phases.md R110),
the awaits (spec/00_scope.md R7), the steps of an expansion and their running (spec/42_transfer_wrappers.md R133), the response
(spec/30_encoding.md R91), the field commands (spec/44_codec_fields.md R150, R151), and the reset of the block
(spec/70_reset_and_hazards.md R200). The block takes no exception and has no return from one (spec/60_exceptions.md R180), so
there is no operation for either. -/

namespace Sys2Proof.Machine

/-- `cmd_ready` (R36): no command is in progress. -/
def State.cmdReady (s : State) : Bool := s.todo.isEmpty

/-- A phase is pending or a stop in progress (R110). -/
def State.busy (s : State) : Bool := s.pend.isSome || s.stopreq

/-- A phase pending, a stop in progress or a transaction open: what INIT and DISABLE check (R100, R102). -/
def State.inTransaction (s : State) : Bool := s.busy || (s.bus != BusState.idle)

/-- `issue(p)` (R110). -/
def State.issue (s : State) (p : Phase) : State := { s with done := false, pend := some p }

/-- `WEDGED <- 1` (R127). -/
def State.wedge (s : State) : State := { s with wedged := true }

/-- The command completes with this response byte and the port is ready again (R36, R37, R91). -/
def State.finish (s : State) (v : Byte) : State := { s with todo := [], rsp := some v }

/-- The outcome of one step of an expansion: it is done, its `await` does not yet hold, or it faults. -/
inductive Progress where
  | go (s : State)
  | park (s : State)
  | stop (f : Fault)
  deriving DecidableEq, Repr

/-- The outcome of an expansion: done, blocked with these steps left, or faulted. -/
inductive RunResult where
  | done (s : State)
  | parked (left : List Micro) (s : State)
  | faulted (f : Fault)
  deriving DecidableEq, Repr

/-- `precheck`: the fault of a bus command that may not start, in the order of R110 and R183. -/
def precheck (cmd : Instr) (s : State) : Option Fault :=
  if !s.en then some (.disabled cmd)
  else if s.busy then some (.busyViolation cmd s.pend)
  else none

/-- A phase command: `precheck`, the table of R128, then its writes (`prep`), the issue, and the wedge (R110 to R119). -/
def launch (cmd : Instr) (p : Phase) (prep : State → State) (s : State) : Progress :=
  match precheck cmd s with
  | some f => .stop f
  | none =>
    match legality p s.bus with
    | .ok => .go ((prep s).issue p)
    | .wedge => .go ((prep s).issue p).wedge
    | .fault => .stop (.phaseOrder cmd s.bus)

/-- The START phase (R111). -/
def launchStart (s : State) : Progress := launch .start .start id s

/-- The STOP phase (R112). -/
def launchStop (s : State) : Progress := launch .stop .stop (fun s => { s with stopreq := true }) s

/-- The address phase (R116). -/
def launchAddr (s : State) : Progress := launch .xferaddr .addr id s

/-- The transmit phase (R117). -/
def launchTx (d : Byte) (s : State) : Progress :=
  launch (.sendbyte d) .tx (fun s => { s with data := d, acken := false }) s

/-- The receive phase of RECV (R118). -/
def launchRx (s : State) : Progress := launch .recv .rxAck (fun s => { s with acken := true }) s

/-- The receive phase of RECVLAST (R119). -/
def launchRxLast (s : State) : Progress := launch .recvlast .rxNack (fun s => { s with acken := false }) s

/-- SETADDR: the address byte into `DATA` (R115). -/
def loadAddress (addr : BusAddr) (read : Bool) (s : State) : Progress :=
  match precheck (.setaddr addr read) s with
  | some f => .stop f
  | none => .go { s with data := addressByte addr read }

/-- The awaited condition gets the Engine's step it is waiting for, where that step is ever taken: no other agent moves before
it (`dueStep`; entry 9). If the condition does not hold then, it never will, or not before `rst`. -/
def awaitEngine (c : State → Bool) (s : State) : Progress :=
  if c (dueStep s) then .go (dueStep s) else .park (dueStep s)

/-- `await c` (R7): the other agents move, in the order of the agenda, until `c` holds. The host cannot move while its
command is in progress (R36), so a command word waits; an `idle` or `rst` event ends this step of the machine. DESIGN CHOICE,
unsafe: inside a command `rst` (R39) falls only here, at an await that does not hold; at any other place it waits for the next
such await or for the end of the command (entry 27). -/
def awaitFrom (c : State → Bool) : List Event → State → Progress
  | [], s => if c s then .go { s with agenda := [] } else awaitEngine c { s with agenda := [] }
  | e :: rest, s =>
    if c s then .go { s with agenda := e :: rest }
    else
      match e with
      | .cmd w => awaitEngine c { s with agenda := .cmd w :: rest }
      | .engine => awaitFrom c rest (engineStep s)
      | .chipTime a v => awaitFrom c rest (chipTimeMove a v s)
      | .idle => .park { s with agenda := .idle :: rest }
      | .rst p => .park { s with agenda := .rst p :: rest }

/-- `await c` with the agenda of the state. -/
def await (c : State → Bool) (s : State) : Progress := awaitFrom c s.agenda s

/-- One step of an expansion. -/
def microStep : Micro → State → Progress
  | .start, s => launchStart s
  | .stop, s => launchStop s
  | .setAddr addr read, s => loadAddress addr read s
  | .xferAddr, s => launchAddr s
  | .sendByte d, s => launchTx d s
  | .sendImage i, s => launchTx (s.img.read i.val) s
  | .recv, s => launchRx s
  | .recvLast, s => launchRxLast s
  | .requireEnabled cmd, s => if s.en then .go s else .stop (.disabled cmd)
  | .awaitDone, s => await State.done s
  | .awaitStop, s => await (fun s => !s.stopreq) s
  | .storeData i, s => .go { s with img := s.img.write i.val s.data }
  | .respondData, s => .go { s with rsp := some s.data }

/-- The steps of an expansion, one after another (R133). -/
def runMicros : List Micro → State → RunResult
  | [], s => .done s
  | m :: ms, s =>
    match microStep m s with
    | .go s' => runMicros ms s'
    | .park s' => .parked (m :: ms) s'
    | .stop f => .faulted f

/-- A command is performed: it completes with its response byte (0x00 when it returns nothing, R91), or it blocks and the
machine goes on with the command in progress (R8), or it faults (R182). -/
def perform (ms : List Micro) (s : State) : Host.Outcome State Fault Refusal :=
  match runMicros ms { s with rsp := none } with
  | .done s' => .next (s'.finish (s'.rsp.getD 0))
  | .parked left s' => .next { s' with todo := left }
  | .faulted f => .fault f

/-- WAIT as steps (R113). -/
def waitSteps : List Micro := [.requireEnabled .wait, .awaitDone]

/-- WAITSTOP as steps (R114). -/
def waitstopSteps : List Micro := [.requireEnabled .waitstop, .awaitStop]

/-- BEGIN as steps (R130). -/
def beginSteps (addr : BusAddr) (read : Bool) : List Micro :=
  .start :: waitSteps ++ .setAddr addr read :: .xferAddr :: waitSteps

/-- END as steps (R131). -/
def endSteps : List Micro := .stop :: waitstopSteps

/-- The burst of a REFRESH: `n` bytes from address `a`, RECV for all but the last, RECVLAST for the last (R140). -/
def receiveSteps (a : Nat) : Nat → List Micro
  | 0 => []
  | 1 => [.recvLast, .awaitDone, .storeData (imgIdx a)]
  | n + 2 => .recv :: .awaitDone :: .storeData (imgIdx a) :: receiveSteps (a + 1) (n + 1)

/-- The data bytes of a COMMIT: `n` bytes from address `a`, each sent and waited for (R141). -/
def transmitSteps (a : Nat) : Nat → List Micro
  | 0 => []
  | n + 1 => .sendImage (imgIdx a) :: waitSteps ++ transmitSteps (a + 1) n

/-- REFRESH as steps, for a valid range (R140). -/
def refreshSteps (clock : BusAddr) (start count : Byte) : List Micro :=
  beginSteps clock false ++ .sendByte start :: waitSteps ++ beginSteps clock true ++
    receiveSteps start.toNat count.toNat ++ endSteps

/-- COMMIT as steps, for a valid range (R141). -/
def commitSteps (clock : BusAddr) (start count : Byte) : List Micro :=
  beginSteps clock false ++ .sendByte start :: waitSteps ++ transmitSteps start.toNat count.toNat ++ endSteps

/-- GETF: the field of the image, zero-extended; nothing else is read or written (R150). -/
def readFieldCommand (f : Field) (s : State) : Host.Outcome State Fault Refusal :=
  let d := fieldDesc s.params.ft f
  .next (s.finish (extractField d (s.img.read d.off.val)))

/-- The image with one field written (R151). -/
def writeField (d : FieldDesc) (v : Byte) (m : Memory) : Memory :=
  m.write d.off.val (insertField d (m.read d.off.val) v)

/-- SETF: the field of the image; a value that does not fit faults (R151). -/
def writeFieldCommand (f : Field) (v : Byte) (s : State) : Host.Outcome State Fault Refusal :=
  let d := fieldDesc s.params.ft f
  if fitsField d v then .next ({ s with img := writeField d v s.img }.finish 0) else .fault (.fieldValueError f v)

/-- The reset input (R39, R40, R200): the block takes its reset values; `DATA`, `SEL` and the image are drawn anew (entry 2).
The environment is not reset. A reset of the block alone (`slaves` false) keeps `WEDGED` (the warning of R40); one with the
slaves clears it and ends the chip's write part (entry 24). A command in progress is dropped. -/
def blockReset (slaves : Bool) (s : State) : State :=
  { s with
    data := Config.draw8 s.draws
    acken := false
    done := false
    stopreq := false
    en := false
    div := 0x00
    status := statusCode .none
    pend := none
    bus := .idle
    sel := (Config.draw8 (s.draws + 1)).extractLsb' 0 7
    wedged := s.wedged && !slaves
    img := Memory.ofBytes (fun a => Config.draw8 (s.draws + 2 + a))
    rsp := none
    chipPtrNext := s.chipPtrNext && !slaves
    todo := []
    draws := s.draws + 21 }

end Sys2Proof.Machine
end

