-- ==== Sys2Proof/Machine/Control.lean ====
section
/-! DEFINITION. The engine control commands INIT, ENABLE, DISABLE, STATUS (spec/40_engine_control.md R100 to R103). None
starts a phase and none blocks. -/

namespace Sys2Proof.Machine

/-- INIT, R100. -/
def execInit (s : State) : Host.Outcome State Fault Refusal :=
  if s.inTransaction then .fault (.busyViolation .init s.pend)
  else .next ({ s with div := divConst s.params, en := true }.finish 0)

/-- ENABLE, R101. -/
def execEnable (s : State) : Host.Outcome State Fault Refusal :=
  .next ({ s with en := true }.finish 0)

/-- DISABLE, R102. -/
def execDisable (s : State) : Host.Outcome State Fault Refusal :=
  if s.inTransaction then .fault (.busyViolation .disable s.pend)
  else .next ({ s with en := false }.finish 0)

/-- STATUS, R103: while a phase is pending the response is a drawn byte (entry 8). -/
def execStatus (s : State) : Host.Outcome State Fault Refusal :=
  if !s.en then .fault (.disabled .status)
  else if s.pend.isSome then .next ({ s with draws := s.draws + 1 }.finish (Config.draw8 s.draws))
  else .next (s.finish s.status)

end Sys2Proof.Machine
end

