-- ==== Sys2Proof/Machine/FieldRead.lean ====
section
/-! DEFINITION. GETF, one meaning per field id (spec/44_codec_fields.md R150; the byte of each field: R153 to R171).
Each is the shared reading of its field, `readFieldCommand`. -/

namespace Sys2Proof.Machine

/-- GETF SEC_ONES (id 0), R150, R153. -/
def execGetfSecOnes (s : State) : Host.Outcome State Fault Refusal := readFieldCommand .secOnes s
/-- GETF SEC_TENS (id 1), R150, R153. -/
def execGetfSecTens (s : State) : Host.Outcome State Fault Refusal := readFieldCommand .secTens s
/-- GETF MIN_ONES (id 2), R150, R154. -/
def execGetfMinOnes (s : State) : Host.Outcome State Fault Refusal := readFieldCommand .minOnes s
/-- GETF MIN_TENS (id 3), R150, R154. -/
def execGetfMinTens (s : State) : Host.Outcome State Fault Refusal := readFieldCommand .minTens s
/-- GETF HR_ONES (id 4), R150, R155. -/
def execGetfHrOnes (s : State) : Host.Outcome State Fault Refusal := readFieldCommand .hrOnes s
/-- GETF HR_TENS (id 5), R150, R155. -/
def execGetfHrTens (s : State) : Host.Outcome State Fault Refusal := readFieldCommand .hrTens s
/-- GETF HR_PM (id 6), R150, R155. -/
def execGetfHrPm (s : State) : Host.Outcome State Fault Refusal := readFieldCommand .hrPm s
/-- GETF HR_12 (id 7), R150, R155. -/
def execGetfHr12 (s : State) : Host.Outcome State Fault Refusal := readFieldCommand .hr12 s
/-- GETF DOW (id 8), R150, R156. -/
def execGetfDow (s : State) : Host.Outcome State Fault Refusal := readFieldCommand .dow s
/-- GETF DATE_ONES (id 9), R150, R157. -/
def execGetfDateOnes (s : State) : Host.Outcome State Fault Refusal := readFieldCommand .dateOnes s
/-- GETF DATE_TENS (id 10), R150, R157. -/
def execGetfDateTens (s : State) : Host.Outcome State Fault Refusal := readFieldCommand .dateTens s
/-- GETF MON_ONES (id 11), R150, R158. -/
def execGetfMonOnes (s : State) : Host.Outcome State Fault Refusal := readFieldCommand .monOnes s
/-- GETF MON_TENS (id 12), R150, R158. -/
def execGetfMonTens (s : State) : Host.Outcome State Fault Refusal := readFieldCommand .monTens s
/-- GETF CENTURY (id 13), R150, R158. -/
def execGetfCentury (s : State) : Host.Outcome State Fault Refusal := readFieldCommand .century s
/-- GETF YR_ONES (id 14), R150, R159. -/
def execGetfYrOnes (s : State) : Host.Outcome State Fault Refusal := readFieldCommand .yrOnes s
/-- GETF YR_TENS (id 15), R150, R159. -/
def execGetfYrTens (s : State) : Host.Outcome State Fault Refusal := readFieldCommand .yrTens s
/-- GETF A1_SEC_ONES (id 16), R150, R160. -/
def execGetfA1SecOnes (s : State) : Host.Outcome State Fault Refusal := readFieldCommand .a1SecOnes s
/-- GETF A1_SEC_TENS (id 17), R150, R160. -/
def execGetfA1SecTens (s : State) : Host.Outcome State Fault Refusal := readFieldCommand .a1SecTens s
/-- GETF A1M1 (id 18), R150, R160. -/
def execGetfA1M1 (s : State) : Host.Outcome State Fault Refusal := readFieldCommand .a1M1 s
/-- GETF A1_MIN_ONES (id 19), R150, R161. -/
def execGetfA1MinOnes (s : State) : Host.Outcome State Fault Refusal := readFieldCommand .a1MinOnes s
/-- GETF A1_MIN_TENS (id 20), R150, R161. -/
def execGetfA1MinTens (s : State) : Host.Outcome State Fault Refusal := readFieldCommand .a1MinTens s
/-- GETF A1M2 (id 21), R150, R161. -/
def execGetfA1M2 (s : State) : Host.Outcome State Fault Refusal := readFieldCommand .a1M2 s
/-- GETF A1_HR_ONES (id 22), R150, R162. -/
def execGetfA1HrOnes (s : State) : Host.Outcome State Fault Refusal := readFieldCommand .a1HrOnes s
/-- GETF A1_HR_TENS (id 23), R150, R162. -/
def execGetfA1HrTens (s : State) : Host.Outcome State Fault Refusal := readFieldCommand .a1HrTens s
/-- GETF A1_HR_PM (id 24), R150, R162. -/
def execGetfA1HrPm (s : State) : Host.Outcome State Fault Refusal := readFieldCommand .a1HrPm s
/-- GETF A1_HR_12 (id 25), R150, R162. -/
def execGetfA1Hr12 (s : State) : Host.Outcome State Fault Refusal := readFieldCommand .a1Hr12 s
/-- GETF A1M3 (id 26), R150, R162. -/
def execGetfA1M3 (s : State) : Host.Outcome State Fault Refusal := readFieldCommand .a1M3 s
/-- GETF A1_DD_ONES (id 27), R150, R163. -/
def execGetfA1DdOnes (s : State) : Host.Outcome State Fault Refusal := readFieldCommand .a1DdOnes s
/-- GETF A1_DD_TENS (id 28), R150, R163. -/
def execGetfA1DdTens (s : State) : Host.Outcome State Fault Refusal := readFieldCommand .a1DdTens s
/-- GETF A1_DYDT (id 29), R150, R163. -/
def execGetfA1Dydt (s : State) : Host.Outcome State Fault Refusal := readFieldCommand .a1Dydt s
/-- GETF A1M4 (id 30), R150, R163. -/
def execGetfA1M4 (s : State) : Host.Outcome State Fault Refusal := readFieldCommand .a1M4 s
/-- GETF A2_MIN_ONES (id 31), R150, R164. -/
def execGetfA2MinOnes (s : State) : Host.Outcome State Fault Refusal := readFieldCommand .a2MinOnes s
/-- GETF A2_MIN_TENS (id 32), R150, R164. -/
def execGetfA2MinTens (s : State) : Host.Outcome State Fault Refusal := readFieldCommand .a2MinTens s
/-- GETF A2M2 (id 33), R150, R164. -/
def execGetfA2M2 (s : State) : Host.Outcome State Fault Refusal := readFieldCommand .a2M2 s
/-- GETF A2_HR_ONES (id 34), R150, R165. -/
def execGetfA2HrOnes (s : State) : Host.Outcome State Fault Refusal := readFieldCommand .a2HrOnes s
/-- GETF A2_HR_TENS (id 35), R150, R165. -/
def execGetfA2HrTens (s : State) : Host.Outcome State Fault Refusal := readFieldCommand .a2HrTens s
/-- GETF A2_HR_PM (id 36), R150, R165. -/
def execGetfA2HrPm (s : State) : Host.Outcome State Fault Refusal := readFieldCommand .a2HrPm s
/-- GETF A2_HR_12 (id 37), R150, R165. -/
def execGetfA2Hr12 (s : State) : Host.Outcome State Fault Refusal := readFieldCommand .a2Hr12 s
/-- GETF A2M3 (id 38), R150, R165. -/
def execGetfA2M3 (s : State) : Host.Outcome State Fault Refusal := readFieldCommand .a2M3 s
/-- GETF A2_DD_ONES (id 39), R150, R166. -/
def execGetfA2DdOnes (s : State) : Host.Outcome State Fault Refusal := readFieldCommand .a2DdOnes s
/-- GETF A2_DD_TENS (id 40), R150, R166. -/
def execGetfA2DdTens (s : State) : Host.Outcome State Fault Refusal := readFieldCommand .a2DdTens s
/-- GETF A2_DYDT (id 41), R150, R166. -/
def execGetfA2Dydt (s : State) : Host.Outcome State Fault Refusal := readFieldCommand .a2Dydt s
/-- GETF A2M4 (id 42), R150, R166. -/
def execGetfA2M4 (s : State) : Host.Outcome State Fault Refusal := readFieldCommand .a2M4 s
/-- GETF A1IE (id 43), R150, R167. -/
def execGetfA1IE (s : State) : Host.Outcome State Fault Refusal := readFieldCommand .a1IE s
/-- GETF A2IE (id 44), R150, R167. -/
def execGetfA2IE (s : State) : Host.Outcome State Fault Refusal := readFieldCommand .a2IE s
/-- GETF INTCN (id 45), R150, R167. -/
def execGetfIntcn (s : State) : Host.Outcome State Fault Refusal := readFieldCommand .intcn s
/-- GETF RS1 (id 46), R150, R167. -/
def execGetfRS1 (s : State) : Host.Outcome State Fault Refusal := readFieldCommand .rs1 s
/-- GETF RS2 (id 47), R150, R167. -/
def execGetfRS2 (s : State) : Host.Outcome State Fault Refusal := readFieldCommand .rs2 s
/-- GETF CONV (id 48), R150, R167. -/
def execGetfConv (s : State) : Host.Outcome State Fault Refusal := readFieldCommand .conv s
/-- GETF BBSQW (id 49), R150, R167. -/
def execGetfBbsqw (s : State) : Host.Outcome State Fault Refusal := readFieldCommand .bbsqw s
/-- GETF EOSC (id 50), R150, R167. -/
def execGetfEosc (s : State) : Host.Outcome State Fault Refusal := readFieldCommand .eosc s
/-- GETF A1F (id 51), R150, R168. -/
def execGetfA1F (s : State) : Host.Outcome State Fault Refusal := readFieldCommand .a1F s
/-- GETF A2F (id 52), R150, R168. -/
def execGetfA2F (s : State) : Host.Outcome State Fault Refusal := readFieldCommand .a2F s
/-- GETF BSY (id 53), R150, R168. -/
def execGetfBsy (s : State) : Host.Outcome State Fault Refusal := readFieldCommand .bsy s
/-- GETF EN32K (id 54), R150, R168. -/
def execGetfEN32K (s : State) : Host.Outcome State Fault Refusal := readFieldCommand .en32K s
/-- GETF OSF (id 55), R150, R168. -/
def execGetfOsf (s : State) : Host.Outcome State Fault Refusal := readFieldCommand .osf s
/-- GETF AGING (id 56), R150, R169. -/
def execGetfAging (s : State) : Host.Outcome State Fault Refusal := readFieldCommand .aging s
/-- GETF TEMP_INT (id 57), R150, R170. -/
def execGetfTempInt (s : State) : Host.Outcome State Fault Refusal := readFieldCommand .tempInt s
/-- GETF TEMP_FRAC (id 58), R150, R171. -/
def execGetfTempFrac (s : State) : Host.Outcome State Fault Refusal := readFieldCommand .tempFrac s

end Sys2Proof.Machine
end

