-- ==== Sys2Proof/Machine/FieldWrite.lean ====
section
/-! DEFINITION. SETF, one meaning per field id (spec/44_codec_fields.md R151; the byte of each field: R153 to R171).
Each is the shared writing of its field, `writeFieldCommand`. -/

namespace Sys2Proof.Machine

/-- SETF SEC_ONES (id 0), R151, R153. -/
def execSetfSecOnes (v : Byte) (s : State) : Host.Outcome State Fault Refusal := writeFieldCommand .secOnes v s
/-- SETF SEC_TENS (id 1), R151, R153. -/
def execSetfSecTens (v : Byte) (s : State) : Host.Outcome State Fault Refusal := writeFieldCommand .secTens v s
/-- SETF MIN_ONES (id 2), R151, R154. -/
def execSetfMinOnes (v : Byte) (s : State) : Host.Outcome State Fault Refusal := writeFieldCommand .minOnes v s
/-- SETF MIN_TENS (id 3), R151, R154. -/
def execSetfMinTens (v : Byte) (s : State) : Host.Outcome State Fault Refusal := writeFieldCommand .minTens v s
/-- SETF HR_ONES (id 4), R151, R155. -/
def execSetfHrOnes (v : Byte) (s : State) : Host.Outcome State Fault Refusal := writeFieldCommand .hrOnes v s
/-- SETF HR_TENS (id 5), R151, R155. -/
def execSetfHrTens (v : Byte) (s : State) : Host.Outcome State Fault Refusal := writeFieldCommand .hrTens v s
/-- SETF HR_PM (id 6), R151, R155. -/
def execSetfHrPm (v : Byte) (s : State) : Host.Outcome State Fault Refusal := writeFieldCommand .hrPm v s
/-- SETF HR_12 (id 7), R151, R155. -/
def execSetfHr12 (v : Byte) (s : State) : Host.Outcome State Fault Refusal := writeFieldCommand .hr12 v s
/-- SETF DOW (id 8), R151, R156. -/
def execSetfDow (v : Byte) (s : State) : Host.Outcome State Fault Refusal := writeFieldCommand .dow v s
/-- SETF DATE_ONES (id 9), R151, R157. -/
def execSetfDateOnes (v : Byte) (s : State) : Host.Outcome State Fault Refusal := writeFieldCommand .dateOnes v s
/-- SETF DATE_TENS (id 10), R151, R157. -/
def execSetfDateTens (v : Byte) (s : State) : Host.Outcome State Fault Refusal := writeFieldCommand .dateTens v s
/-- SETF MON_ONES (id 11), R151, R158. -/
def execSetfMonOnes (v : Byte) (s : State) : Host.Outcome State Fault Refusal := writeFieldCommand .monOnes v s
/-- SETF MON_TENS (id 12), R151, R158. -/
def execSetfMonTens (v : Byte) (s : State) : Host.Outcome State Fault Refusal := writeFieldCommand .monTens v s
/-- SETF CENTURY (id 13), R151, R158. -/
def execSetfCentury (v : Byte) (s : State) : Host.Outcome State Fault Refusal := writeFieldCommand .century v s
/-- SETF YR_ONES (id 14), R151, R159. -/
def execSetfYrOnes (v : Byte) (s : State) : Host.Outcome State Fault Refusal := writeFieldCommand .yrOnes v s
/-- SETF YR_TENS (id 15), R151, R159. -/
def execSetfYrTens (v : Byte) (s : State) : Host.Outcome State Fault Refusal := writeFieldCommand .yrTens v s
/-- SETF A1_SEC_ONES (id 16), R151, R160. -/
def execSetfA1SecOnes (v : Byte) (s : State) : Host.Outcome State Fault Refusal := writeFieldCommand .a1SecOnes v s
/-- SETF A1_SEC_TENS (id 17), R151, R160. -/
def execSetfA1SecTens (v : Byte) (s : State) : Host.Outcome State Fault Refusal := writeFieldCommand .a1SecTens v s
/-- SETF A1M1 (id 18), R151, R160. -/
def execSetfA1M1 (v : Byte) (s : State) : Host.Outcome State Fault Refusal := writeFieldCommand .a1M1 v s
/-- SETF A1_MIN_ONES (id 19), R151, R161. -/
def execSetfA1MinOnes (v : Byte) (s : State) : Host.Outcome State Fault Refusal := writeFieldCommand .a1MinOnes v s
/-- SETF A1_MIN_TENS (id 20), R151, R161. -/
def execSetfA1MinTens (v : Byte) (s : State) : Host.Outcome State Fault Refusal := writeFieldCommand .a1MinTens v s
/-- SETF A1M2 (id 21), R151, R161. -/
def execSetfA1M2 (v : Byte) (s : State) : Host.Outcome State Fault Refusal := writeFieldCommand .a1M2 v s
/-- SETF A1_HR_ONES (id 22), R151, R162. -/
def execSetfA1HrOnes (v : Byte) (s : State) : Host.Outcome State Fault Refusal := writeFieldCommand .a1HrOnes v s
/-- SETF A1_HR_TENS (id 23), R151, R162. -/
def execSetfA1HrTens (v : Byte) (s : State) : Host.Outcome State Fault Refusal := writeFieldCommand .a1HrTens v s
/-- SETF A1_HR_PM (id 24), R151, R162. -/
def execSetfA1HrPm (v : Byte) (s : State) : Host.Outcome State Fault Refusal := writeFieldCommand .a1HrPm v s
/-- SETF A1_HR_12 (id 25), R151, R162. -/
def execSetfA1Hr12 (v : Byte) (s : State) : Host.Outcome State Fault Refusal := writeFieldCommand .a1Hr12 v s
/-- SETF A1M3 (id 26), R151, R162. -/
def execSetfA1M3 (v : Byte) (s : State) : Host.Outcome State Fault Refusal := writeFieldCommand .a1M3 v s
/-- SETF A1_DD_ONES (id 27), R151, R163. -/
def execSetfA1DdOnes (v : Byte) (s : State) : Host.Outcome State Fault Refusal := writeFieldCommand .a1DdOnes v s
/-- SETF A1_DD_TENS (id 28), R151, R163. -/
def execSetfA1DdTens (v : Byte) (s : State) : Host.Outcome State Fault Refusal := writeFieldCommand .a1DdTens v s
/-- SETF A1_DYDT (id 29), R151, R163. -/
def execSetfA1Dydt (v : Byte) (s : State) : Host.Outcome State Fault Refusal := writeFieldCommand .a1Dydt v s
/-- SETF A1M4 (id 30), R151, R163. -/
def execSetfA1M4 (v : Byte) (s : State) : Host.Outcome State Fault Refusal := writeFieldCommand .a1M4 v s
/-- SETF A2_MIN_ONES (id 31), R151, R164. -/
def execSetfA2MinOnes (v : Byte) (s : State) : Host.Outcome State Fault Refusal := writeFieldCommand .a2MinOnes v s
/-- SETF A2_MIN_TENS (id 32), R151, R164. -/
def execSetfA2MinTens (v : Byte) (s : State) : Host.Outcome State Fault Refusal := writeFieldCommand .a2MinTens v s
/-- SETF A2M2 (id 33), R151, R164. -/
def execSetfA2M2 (v : Byte) (s : State) : Host.Outcome State Fault Refusal := writeFieldCommand .a2M2 v s
/-- SETF A2_HR_ONES (id 34), R151, R165. -/
def execSetfA2HrOnes (v : Byte) (s : State) : Host.Outcome State Fault Refusal := writeFieldCommand .a2HrOnes v s
/-- SETF A2_HR_TENS (id 35), R151, R165. -/
def execSetfA2HrTens (v : Byte) (s : State) : Host.Outcome State Fault Refusal := writeFieldCommand .a2HrTens v s
/-- SETF A2_HR_PM (id 36), R151, R165. -/
def execSetfA2HrPm (v : Byte) (s : State) : Host.Outcome State Fault Refusal := writeFieldCommand .a2HrPm v s
/-- SETF A2_HR_12 (id 37), R151, R165. -/
def execSetfA2Hr12 (v : Byte) (s : State) : Host.Outcome State Fault Refusal := writeFieldCommand .a2Hr12 v s
/-- SETF A2M3 (id 38), R151, R165. -/
def execSetfA2M3 (v : Byte) (s : State) : Host.Outcome State Fault Refusal := writeFieldCommand .a2M3 v s
/-- SETF A2_DD_ONES (id 39), R151, R166. -/
def execSetfA2DdOnes (v : Byte) (s : State) : Host.Outcome State Fault Refusal := writeFieldCommand .a2DdOnes v s
/-- SETF A2_DD_TENS (id 40), R151, R166. -/
def execSetfA2DdTens (v : Byte) (s : State) : Host.Outcome State Fault Refusal := writeFieldCommand .a2DdTens v s
/-- SETF A2_DYDT (id 41), R151, R166. -/
def execSetfA2Dydt (v : Byte) (s : State) : Host.Outcome State Fault Refusal := writeFieldCommand .a2Dydt v s
/-- SETF A2M4 (id 42), R151, R166. -/
def execSetfA2M4 (v : Byte) (s : State) : Host.Outcome State Fault Refusal := writeFieldCommand .a2M4 v s
/-- SETF A1IE (id 43), R151, R167. -/
def execSetfA1IE (v : Byte) (s : State) : Host.Outcome State Fault Refusal := writeFieldCommand .a1IE v s
/-- SETF A2IE (id 44), R151, R167. -/
def execSetfA2IE (v : Byte) (s : State) : Host.Outcome State Fault Refusal := writeFieldCommand .a2IE v s
/-- SETF INTCN (id 45), R151, R167. -/
def execSetfIntcn (v : Byte) (s : State) : Host.Outcome State Fault Refusal := writeFieldCommand .intcn v s
/-- SETF RS1 (id 46), R151, R167. -/
def execSetfRS1 (v : Byte) (s : State) : Host.Outcome State Fault Refusal := writeFieldCommand .rs1 v s
/-- SETF RS2 (id 47), R151, R167. -/
def execSetfRS2 (v : Byte) (s : State) : Host.Outcome State Fault Refusal := writeFieldCommand .rs2 v s
/-- SETF CONV (id 48), R151, R167. -/
def execSetfConv (v : Byte) (s : State) : Host.Outcome State Fault Refusal := writeFieldCommand .conv v s
/-- SETF BBSQW (id 49), R151, R167. -/
def execSetfBbsqw (v : Byte) (s : State) : Host.Outcome State Fault Refusal := writeFieldCommand .bbsqw v s
/-- SETF EOSC (id 50), R151, R167. -/
def execSetfEosc (v : Byte) (s : State) : Host.Outcome State Fault Refusal := writeFieldCommand .eosc v s
/-- SETF A1F (id 51), R151, R168. -/
def execSetfA1F (v : Byte) (s : State) : Host.Outcome State Fault Refusal := writeFieldCommand .a1F v s
/-- SETF A2F (id 52), R151, R168. -/
def execSetfA2F (v : Byte) (s : State) : Host.Outcome State Fault Refusal := writeFieldCommand .a2F v s
/-- SETF BSY (id 53), R151, R168. -/
def execSetfBsy (v : Byte) (s : State) : Host.Outcome State Fault Refusal := writeFieldCommand .bsy v s
/-- SETF EN32K (id 54), R151, R168. -/
def execSetfEN32K (v : Byte) (s : State) : Host.Outcome State Fault Refusal := writeFieldCommand .en32K v s
/-- SETF OSF (id 55), R151, R168. -/
def execSetfOsf (v : Byte) (s : State) : Host.Outcome State Fault Refusal := writeFieldCommand .osf v s
/-- SETF AGING (id 56), R151, R169. -/
def execSetfAging (v : Byte) (s : State) : Host.Outcome State Fault Refusal := writeFieldCommand .aging v s
/-- SETF TEMP_INT (id 57), R151, R170. -/
def execSetfTempInt (v : Byte) (s : State) : Host.Outcome State Fault Refusal := writeFieldCommand .tempInt v s
/-- SETF TEMP_FRAC (id 58), R151, R171. -/
def execSetfTempFrac (v : Byte) (s : State) : Host.Outcome State Fault Refusal := writeFieldCommand .tempFrac v s

end Sys2Proof.Machine
end

