-- ==== Sys2Proof/Machine/Phases.lean ====
section
/-! DEFINITION. The bus phase commands (spec/41_bus_phases.md R111 to R119). START, STOP, SETADDR, XFERADDR and SENDBYTE do not
block; WAIT, WAITSTOP, RECV and RECVLAST do. -/

namespace Sys2Proof.Machine

/-- START, R111. -/
def execStart (s : State) : Host.Outcome State Fault Refusal := perform [.start] s

/-- STOP, R112. -/
def execStop (s : State) : Host.Outcome State Fault Refusal := perform [.stop] s

/-- WAIT, R113. -/
def execWait (s : State) : Host.Outcome State Fault Refusal := perform waitSteps s

/-- WAITSTOP, R114. -/
def execWaitstop (s : State) : Host.Outcome State Fault Refusal := perform waitstopSteps s

/-- SETADDR, R115. -/
def execSetaddr (addr : BusAddr) (read : Bool) (s : State) : Host.Outcome State Fault Refusal :=
  perform [.setAddr addr read] s

/-- XFERADDR, R116. -/
def execXferaddr (s : State) : Host.Outcome State Fault Refusal := perform [.xferAddr] s

/-- SENDBYTE, R117. -/
def execSendbyte (d : Byte) (s : State) : Host.Outcome State Fault Refusal := perform [.sendByte d] s

/-- RECV, R118. -/
def execRecv (s : State) : Host.Outcome State Fault Refusal := perform [.recv, .awaitDone, .respondData] s

/-- RECVLAST, R119. -/
def execRecvlast (s : State) : Host.Outcome State Fault Refusal := perform [.recvLast, .awaitDone, .respondData] s

end Sys2Proof.Machine
end

