-- ==== Sys2Proof/Machine/Ranges.lean ====
section
/-! DEFINITION. The codec range commands REFRESH and COMMIT (spec/43_codec_ranges.md R140, R141): the range check first, then
the steps, always to the clock chip (R142). -/

namespace Sys2Proof.Machine

/-- REFRESH, R140. -/
def execRefresh (start count : Byte) (s : State) : Host.Outcome State Fault Refusal :=
  if validRange start count then perform (refreshSteps s.params.addrClock start count) s
  else .fault (.rangeError start count)

/-- COMMIT, R141. -/
def execCommit (start count : Byte) (s : State) : Host.Outcome State Fault Refusal :=
  if validRange start count then perform (commitSteps s.params.addrClock start count) s
  else .fault (.rangeError start count)

end Sys2Proof.Machine
end

