-- ==== Sys2Proof/Machine/Wrappers.lean ====
section
/-! DEFINITION. The transfer wrappers BEGIN and END (spec/42_transfer_wrappers.md R130, R131). -/

namespace Sys2Proof.Machine

/-- BEGIN, R130. -/
def execBeginXfer (addr : BusAddr) (read : Bool) (s : State) : Host.Outcome State Fault Refusal :=
  perform (beginSteps addr read) s

/-- END, R131. -/
def execEndXfer (s : State) : Host.Outcome State Fault Refusal := perform endSteps s

end Sys2Proof.Machine
end

