-- ==== Sys2Proof/Machine/Dispatch.lean ====
section
/-! DEFINITION. The dispatch: one arm per command, one direct call of its meaning. -/

namespace Sys2Proof.Machine

def exec (i : Instr) (s : State) : Host.Outcome State Fault Refusal :=
  match i with
  | .init => Sys2Proof.Machine.execInit s
  | .enable => Sys2Proof.Machine.execEnable s
  | .disable => Sys2Proof.Machine.execDisable s
  | .status => Sys2Proof.Machine.execStatus s
  | .start => Sys2Proof.Machine.execStart s
  | .stop => Sys2Proof.Machine.execStop s
  | .wait => Sys2Proof.Machine.execWait s
  | .waitstop => Sys2Proof.Machine.execWaitstop s
  | .setaddr addr read => Sys2Proof.Machine.execSetaddr addr read s
  | .xferaddr => Sys2Proof.Machine.execXferaddr s
  | .sendbyte d => Sys2Proof.Machine.execSendbyte d s
  | .recv => Sys2Proof.Machine.execRecv s
  | .recvlast => Sys2Proof.Machine.execRecvlast s
  | .beginXfer addr read => Sys2Proof.Machine.execBeginXfer addr read s
  | .endXfer => Sys2Proof.Machine.execEndXfer s
  | .refresh start count => Sys2Proof.Machine.execRefresh start count s
  | .commit start count => Sys2Proof.Machine.execCommit start count s
  | .getfSecOnes => Sys2Proof.Machine.execGetfSecOnes s
  | .getfSecTens => Sys2Proof.Machine.execGetfSecTens s
  | .getfMinOnes => Sys2Proof.Machine.execGetfMinOnes s
  | .getfMinTens => Sys2Proof.Machine.execGetfMinTens s
  | .getfHrOnes => Sys2Proof.Machine.execGetfHrOnes s
  | .getfHrTens => Sys2Proof.Machine.execGetfHrTens s
  | .getfHrPm => Sys2Proof.Machine.execGetfHrPm s
  | .getfHr12 => Sys2Proof.Machine.execGetfHr12 s
  | .getfDow => Sys2Proof.Machine.execGetfDow s
  | .getfDateOnes => Sys2Proof.Machine.execGetfDateOnes s
  | .getfDateTens => Sys2Proof.Machine.execGetfDateTens s
  | .getfMonOnes => Sys2Proof.Machine.execGetfMonOnes s
  | .getfMonTens => Sys2Proof.Machine.execGetfMonTens s
  | .getfCentury => Sys2Proof.Machine.execGetfCentury s
  | .getfYrOnes => Sys2Proof.Machine.execGetfYrOnes s
  | .getfYrTens => Sys2Proof.Machine.execGetfYrTens s
  | .getfA1SecOnes => Sys2Proof.Machine.execGetfA1SecOnes s
  | .getfA1SecTens => Sys2Proof.Machine.execGetfA1SecTens s
  | .getfA1M1 => Sys2Proof.Machine.execGetfA1M1 s
  | .getfA1MinOnes => Sys2Proof.Machine.execGetfA1MinOnes s
  | .getfA1MinTens => Sys2Proof.Machine.execGetfA1MinTens s
  | .getfA1M2 => Sys2Proof.Machine.execGetfA1M2 s
  | .getfA1HrOnes => Sys2Proof.Machine.execGetfA1HrOnes s
  | .getfA1HrTens => Sys2Proof.Machine.execGetfA1HrTens s
  | .getfA1HrPm => Sys2Proof.Machine.execGetfA1HrPm s
  | .getfA1Hr12 => Sys2Proof.Machine.execGetfA1Hr12 s
  | .getfA1M3 => Sys2Proof.Machine.execGetfA1M3 s
  | .getfA1DdOnes => Sys2Proof.Machine.execGetfA1DdOnes s
  | .getfA1DdTens => Sys2Proof.Machine.execGetfA1DdTens s
  | .getfA1Dydt => Sys2Proof.Machine.execGetfA1Dydt s
  | .getfA1M4 => Sys2Proof.Machine.execGetfA1M4 s
  | .getfA2MinOnes => Sys2Proof.Machine.execGetfA2MinOnes s
  | .getfA2MinTens => Sys2Proof.Machine.execGetfA2MinTens s
  | .getfA2M2 => Sys2Proof.Machine.execGetfA2M2 s
  | .getfA2HrOnes => Sys2Proof.Machine.execGetfA2HrOnes s
  | .getfA2HrTens => Sys2Proof.Machine.execGetfA2HrTens s
  | .getfA2HrPm => Sys2Proof.Machine.execGetfA2HrPm s
  | .getfA2Hr12 => Sys2Proof.Machine.execGetfA2Hr12 s
  | .getfA2M3 => Sys2Proof.Machine.execGetfA2M3 s
  | .getfA2DdOnes => Sys2Proof.Machine.execGetfA2DdOnes s
  | .getfA2DdTens => Sys2Proof.Machine.execGetfA2DdTens s
  | .getfA2Dydt => Sys2Proof.Machine.execGetfA2Dydt s
  | .getfA2M4 => Sys2Proof.Machine.execGetfA2M4 s
  | .getfA1IE => Sys2Proof.Machine.execGetfA1IE s
  | .getfA2IE => Sys2Proof.Machine.execGetfA2IE s
  | .getfIntcn => Sys2Proof.Machine.execGetfIntcn s
  | .getfRS1 => Sys2Proof.Machine.execGetfRS1 s
  | .getfRS2 => Sys2Proof.Machine.execGetfRS2 s
  | .getfConv => Sys2Proof.Machine.execGetfConv s
  | .getfBbsqw => Sys2Proof.Machine.execGetfBbsqw s
  | .getfEosc => Sys2Proof.Machine.execGetfEosc s
  | .getfA1F => Sys2Proof.Machine.execGetfA1F s
  | .getfA2F => Sys2Proof.Machine.execGetfA2F s
  | .getfBsy => Sys2Proof.Machine.execGetfBsy s
  | .getfEN32K => Sys2Proof.Machine.execGetfEN32K s
  | .getfOsf => Sys2Proof.Machine.execGetfOsf s
  | .getfAging => Sys2Proof.Machine.execGetfAging s
  | .getfTempInt => Sys2Proof.Machine.execGetfTempInt s
  | .getfTempFrac => Sys2Proof.Machine.execGetfTempFrac s
  | .setfSecOnes v => Sys2Proof.Machine.execSetfSecOnes v s
  | .setfSecTens v => Sys2Proof.Machine.execSetfSecTens v s
  | .setfMinOnes v => Sys2Proof.Machine.execSetfMinOnes v s
  | .setfMinTens v => Sys2Proof.Machine.execSetfMinTens v s
  | .setfHrOnes v => Sys2Proof.Machine.execSetfHrOnes v s
  | .setfHrTens v => Sys2Proof.Machine.execSetfHrTens v s
  | .setfHrPm v => Sys2Proof.Machine.execSetfHrPm v s
  | .setfHr12 v => Sys2Proof.Machine.execSetfHr12 v s
  | .setfDow v => Sys2Proof.Machine.execSetfDow v s
  | .setfDateOnes v => Sys2Proof.Machine.execSetfDateOnes v s
  | .setfDateTens v => Sys2Proof.Machine.execSetfDateTens v s
  | .setfMonOnes v => Sys2Proof.Machine.execSetfMonOnes v s
  | .setfMonTens v => Sys2Proof.Machine.execSetfMonTens v s
  | .setfCentury v => Sys2Proof.Machine.execSetfCentury v s
  | .setfYrOnes v => Sys2Proof.Machine.execSetfYrOnes v s
  | .setfYrTens v => Sys2Proof.Machine.execSetfYrTens v s
  | .setfA1SecOnes v => Sys2Proof.Machine.execSetfA1SecOnes v s
  | .setfA1SecTens v => Sys2Proof.Machine.execSetfA1SecTens v s
  | .setfA1M1 v => Sys2Proof.Machine.execSetfA1M1 v s
  | .setfA1MinOnes v => Sys2Proof.Machine.execSetfA1MinOnes v s
  | .setfA1MinTens v => Sys2Proof.Machine.execSetfA1MinTens v s
  | .setfA1M2 v => Sys2Proof.Machine.execSetfA1M2 v s
  | .setfA1HrOnes v => Sys2Proof.Machine.execSetfA1HrOnes v s
  | .setfA1HrTens v => Sys2Proof.Machine.execSetfA1HrTens v s
  | .setfA1HrPm v => Sys2Proof.Machine.execSetfA1HrPm v s
  | .setfA1Hr12 v => Sys2Proof.Machine.execSetfA1Hr12 v s
  | .setfA1M3 v => Sys2Proof.Machine.execSetfA1M3 v s
  | .setfA1DdOnes v => Sys2Proof.Machine.execSetfA1DdOnes v s
  | .setfA1DdTens v => Sys2Proof.Machine.execSetfA1DdTens v s
  | .setfA1Dydt v => Sys2Proof.Machine.execSetfA1Dydt v s
  | .setfA1M4 v => Sys2Proof.Machine.execSetfA1M4 v s
  | .setfA2MinOnes v => Sys2Proof.Machine.execSetfA2MinOnes v s
  | .setfA2MinTens v => Sys2Proof.Machine.execSetfA2MinTens v s
  | .setfA2M2 v => Sys2Proof.Machine.execSetfA2M2 v s
  | .setfA2HrOnes v => Sys2Proof.Machine.execSetfA2HrOnes v s
  | .setfA2HrTens v => Sys2Proof.Machine.execSetfA2HrTens v s
  | .setfA2HrPm v => Sys2Proof.Machine.execSetfA2HrPm v s
  | .setfA2Hr12 v => Sys2Proof.Machine.execSetfA2Hr12 v s
  | .setfA2M3 v => Sys2Proof.Machine.execSetfA2M3 v s
  | .setfA2DdOnes v => Sys2Proof.Machine.execSetfA2DdOnes v s
  | .setfA2DdTens v => Sys2Proof.Machine.execSetfA2DdTens v s
  | .setfA2Dydt v => Sys2Proof.Machine.execSetfA2Dydt v s
  | .setfA2M4 v => Sys2Proof.Machine.execSetfA2M4 v s
  | .setfA1IE v => Sys2Proof.Machine.execSetfA1IE v s
  | .setfA2IE v => Sys2Proof.Machine.execSetfA2IE v s
  | .setfIntcn v => Sys2Proof.Machine.execSetfIntcn v s
  | .setfRS1 v => Sys2Proof.Machine.execSetfRS1 v s
  | .setfRS2 v => Sys2Proof.Machine.execSetfRS2 v s
  | .setfConv v => Sys2Proof.Machine.execSetfConv v s
  | .setfBbsqw v => Sys2Proof.Machine.execSetfBbsqw v s
  | .setfEosc v => Sys2Proof.Machine.execSetfEosc v s
  | .setfA1F v => Sys2Proof.Machine.execSetfA1F v s
  | .setfA2F v => Sys2Proof.Machine.execSetfA2F v s
  | .setfBsy v => Sys2Proof.Machine.execSetfBsy v s
  | .setfEN32K v => Sys2Proof.Machine.execSetfEN32K v s
  | .setfOsf v => Sys2Proof.Machine.execSetfOsf v s
  | .setfAging v => Sys2Proof.Machine.execSetfAging v s
  | .setfTempInt v => Sys2Proof.Machine.execSetfTempInt v s
  | .setfTempFrac v => Sys2Proof.Machine.execSetfTempFrac v s

end Sys2Proof.Machine
end

