-- ==== Sys2Proof/Machine/Schedule.lean ====
section
/-! DEFINITION. Which agent moves next (spec/00_scope.md R9, spec/10_state.md R36; entries 9, 10 and 11). -/

namespace Sys2Proof.Machine

/-- The host issues a command word: an illegal one faults before anything else (spec/30_encoding.md R90). -/
def issueWord (w : CmdWord) (s : State) : Host.Outcome State Fault Refusal :=
  match decode w with
  | .ok i => exec i s
  | .error _ => .fault (.illegalCommand w)

/-- A move with no command in progress: the next agent of the agenda moves; when nothing is placed there, the Engine takes
its step if it has one and is fair (`dueStep`). No command completes unless the host moves, so `rsp_valid` is 0. -/
def readyTurn (s : State) : Host.Outcome State Fault Refusal :=
  match s.agenda with
  | [] => .next (dueStep { s with rsp := none })
  | .cmd w :: rest => issueWord w { s with agenda := rest }
  | .engine :: rest => .next (engineStep { s with agenda := rest, rsp := none })
  | .chipTime a v :: rest => .next (chipTimeMove a v { s with agenda := rest, rsp := none })
  | .idle :: rest => .next { s with agenda := rest, rsp := none }
  | .rst p :: rest => .next (blockReset p { s with agenda := rest })

/-- A move with a command in progress: `rst` drops it (where inside a command it can fall is entry 27), an idle moment passes, otherwise the command goes on from the step it
is at (R133); if it is blocked forever, nothing changes any more (R8). -/
def blockedTurn (s : State) : Host.Outcome State Fault Refusal :=
  match s.agenda with
  | .rst p :: rest => .next (blockReset p { s with agenda := rest })
  | .idle :: rest => .next { s with agenda := rest, rsp := none }
  | _ => perform s.todo s

/-- One move of the machine. -/
def turn (s : State) : Host.Outcome State Fault Refusal :=
  if s.cmdReady then readyTurn s else blockedTurn s

/-- The host's next move is this command word. -/
def placeCommand (w : CmdWord) (s : State) : State := { s with agenda := .cmd w :: s.agenda }

end Sys2Proof.Machine
end

