-- ==== Sys2Proof/Machine/Step.lean ====
section
/-! DEFINITION. The step of the machine. -/

namespace Sys2Proof.Machine

/-- One step: one agent moves (`turn`). -/
def step (s : State) : Host.Outcome State Fault Refusal := turn s

/-- The state in which the host's next move is the command whose `nbits` low bits are given (entry 11). -/
def State.withFetchWord (s : State) (nbits w : Nat) : State := placeCommand (BitVec.ofNat 24 (w % 2 ^ nbits)) s

end Sys2Proof.Machine
end

