-- ==== Sys2Proof/Machine/Readings.lean ====
section
/-! DEFINITION. What the host makes of the commands: the register map (spec/20_memory.md R54), the pseudo-instructions
(spec/30_encoding.md R93, R94), and fields read together (spec/44_codec_fields.md R163, R166, R172 to
R177). The block itself does none of
this; no meaning of a command uses it. -/

namespace Sys2Proof.Machine

/-- The registers mirrored at 0x00 to 0x12, in address order (R54). -/
inductive ClockRegister where
  | seconds | minutes | hours | dayOfWeek | date | month | year
  | alarm1Seconds | alarm1Minutes | alarm1Hours | alarm1Day
  | alarm2Minutes | alarm2Hours | alarm2Day
  | control | controlStatus | aging | temperatureMsb | temperatureLsb
  deriving DecidableEq, Repr

/-- The address of a register, in the image and in the chip (R54). -/
def ClockRegister.addr : ClockRegister → ImgIdx
  | .seconds => 0x00
  | .minutes => 0x01
  | .hours => 0x02
  | .dayOfWeek => 0x03
  | .date => 0x04
  | .month => 0x05
  | .year => 0x06
  | .alarm1Seconds => 0x07
  | .alarm1Minutes => 0x08
  | .alarm1Hours => 0x09
  | .alarm1Day => 0x0A
  | .alarm2Minutes => 0x0B
  | .alarm2Hours => 0x0C
  | .alarm2Day => 0x0D
  | .control => 0x0E
  | .controlStatus => 0x0F
  | .aging => 0x10
  | .temperatureMsb => 0x11
  | .temperatureLsb => 0x12

/-- The named ranges of the assembler syntax (R93). -/
inductive NamedRange where
  | time | day | date | alarm1 | alarm2 | alarms | ctrlstat | control | cstatus | aging | temp | all
  deriving DecidableEq, Repr

/-- `(start, count)` of a named range (R93). -/
def NamedRange.bounds : NamedRange → Byte × Byte
  | .time => (0x00, 3)
  | .day => (0x03, 1)
  | .date => (0x04, 3)
  | .alarm1 => (0x07, 4)
  | .alarm2 => (0x0B, 3)
  | .alarms => (0x07, 7)
  | .ctrlstat => (0x0E, 2)
  | .control => (0x0E, 1)
  | .cstatus => (0x0F, 1)
  | .aging => (0x10, 1)
  | .temp => (0x11, 2)
  | .all => (0x00, 19)

/-- `REFRESH name` (R93). -/
def refreshNamed (r : NamedRange) : Instr := .refresh r.bounds.1 r.bounds.2

/-- `COMMIT name` (R93). -/
def commitNamed (r : NamedRange) : Instr := .commit r.bounds.1 r.bounds.2

/-- `SETBCD hi, lo, n` for n from 0 to 99 (R94). -/
def setBcd (hi lo : Field) (n : Nat) : List Instr :=
  [setfOf (BitVec.ofNat 8 (n / 10)) hi, setfOf (BitVec.ofNat 8 (n % 10)) lo]

/-- What GETF answers for a field of an image (R150). -/
def fieldValue (ft : FieldTable) (f : Field) (m : Memory) : Byte :=
  extractField (fieldDesc ft f) (m.read (fieldDesc ft f).off.val)

/-- The value of a register with a tens and a ones field (R172). -/
def twoDigits (ft : FieldTable) (tens ones : Field) (m : Memory) : Nat :=
  10 * (fieldValue ft tens m).toNat + (fieldValue ft ones m).toNat

/-- An hours byte read as its four fields together (R173): the hour of a 24-hour byte, or hour and PM of a 12-hour byte. -/
inductive HourReading where
  | hour24 (hour : Nat)
  | hour12 (hour : Nat) (pm : Bool)
  deriving DecidableEq, Repr

/-- The reading of R173, from the fields HR_12, HR_PM, HR_TENS, HR_ONES or their alarm equivalents. -/
def readHours (ft : FieldTable) (h12 pm tens ones : Field) (m : Memory) : HourReading :=
  if fieldValue ft h12 m = 0 then .hour24 (twoDigits ft tens ones m)
  else .hour12 (10 * ((fieldValue ft tens m).toNat % 2) + (fieldValue ft ones m).toNat) (fieldValue ft pm m != 0)

/-- What an alarm's date-or-day byte holds (R163, R166). -/
inductive DateOrDay where
  /-- a day of the week, 1 to 7 -/
  | dayOfWeek (day : Nat)
  /-- a date, 1 to 31 -/
  | date (date : Nat)
  deriving DecidableEq, Repr

/-- The reading of R163: with the select bit 1 the ones digit is a day of the week (the tens digit is then 0), with it 0 the
two digits are a BCD date. -/
def readDateOrDay (ft : FieldTable) (dydt tens ones : Field) (m : Memory) : DateOrDay :=
  if fieldValue ft dydt m = 0 then .date (twoDigits ft tens ones m) else .dayOfWeek (fieldValue ft ones m).toNat

/-- The date or day of alarm 1, byte 0x0A (R163). -/
def alarm1DateOrDay (ft : FieldTable) (m : Memory) : DateOrDay := readDateOrDay ft .a1Dydt .a1DdTens .a1DdOnes m

/-- The date or day of alarm 2, byte 0x0D (R166). -/
def alarm2DateOrDay (ft : FieldTable) (m : Memory) : DateOrDay := readDateOrDay ft .a2Dydt .a2DdTens .a2DdOnes m

/-- An alarm sub-register takes part in the match when its mask bit is 0 (R174). -/
def participates (ft : FieldTable) (mask : Field) (m : Memory) : Bool := fieldValue ft mask m == 0

/-- The alarm-2 configuration of the document's firmware: hours and minutes only (R175). -/
def alarm2HoursMinutesOnly (ft : FieldTable) (m : Memory) : Bool :=
  fieldValue ft .a2M4 m == 1 && fieldValue ft .a2M3 m == 0 && fieldValue ft .a2M2 m == 0

/-- The temperature in quarters: `sext(TEMP_INT) + TEMP_FRAC × 0.25`, times four (R176). -/
def temperatureQuarters (ft : FieldTable) (m : Memory) : Int :=
  4 * (fieldValue ft .tempInt m).toInt + (fieldValue ft .tempFrac m).toNat

/-- The sequence that clears the alarm-2 match flag (R177). -/
def clearAlarm2Flag : List Instr := [refreshNamed .cstatus, .setfA2F 0, commitNamed .cstatus]

end Sys2Proof.Machine
end

