-- ==== Sys2Proof/Safety.lean ====
section
/-! DEFINITION. The terms the claims use: what a safe run is, when a state is quiet, what hangs, which words are illegal by the
spec's own list, the phases a transaction puts on the bus, and the invariant of the machine. -/

namespace Sys2Proof.Machine

/-! ## Runs -/

/-- The first `n` steps record no fault (spec/60_exceptions.md R182: a run with a fault is not a good run). -/
def FaultFree (n : Nat) (s : State) : Prop :=
  ∀ k, k ≤ n → ∀ f, Host.Core.run Sys2Proof.core k s ≠ .fault f

/-- A command that blocks forever (spec/00_scope.md R8): the port is not ready and the step changes nothing any more. -/
def Hangs (s : State) : Prop := s.cmdReady = false ∧ step s = .next s

/-- The host issues these commands in order, each after the one before has completed (spec/10_state.md R36); it stops at a
command that blocks, and at a fault. -/
def hostIssues : List Instr → State → Host.Outcome State Fault Refusal
  | [], s => .next s
  | i :: is, s =>
    match exec i s with
    | .next t => if t.cmdReady then hostIssues is t else .next t
    | .fault f => .fault f
    | .refused r => .refused r

/-! ## Conditions on a state -/

/-- No agent but the Engine moves before the next command: the agenda is empty or the host is next. -/
def State.settled (s : State) : Bool :=
  match s.agenda with
  | [] => true
  | .cmd _ :: _ => true
  | .engine :: _ => false
  | .chipTime _ _ :: _ => false
  | .idle :: _ => false
  | .rst _ :: _ => false

/-- The next move is one that a command in progress does not take into its step: an idle moment, or `rst`. -/
def interrupts : List Event → Bool
  | [] => false
  | .cmd _ :: _ => false
  | .engine :: _ => false
  | .chipTime _ _ :: _ => false
  | .idle :: _ => true
  | .rst _ :: _ => true

/-- Only the Engine moves before the next command, and its step, where it has one, is taken (the fairness of
spec/41_bus_phases.md R120; entry 9): an await gets the step it waits for. -/
def State.served (s : State) : Bool := s.settled && s.fair

/-- The engine is enabled, nothing is pending, and the bus is not wedged. -/
def State.quiet (s : State) : Bool := s.en && !s.busy && !s.wedged

/-- A quiet engine in a bus state from which a START completes (spec/41_bus_phases.md R128, the entries "ok"). -/
def State.readyToStart (s : State) : Bool := s.quiet && (legality .start s.bus == .ok)

/-- The next `n` answers of the slaves are ACK. -/
def State.acksNext (s : State) (n : Nat) : Bool := decide (n ≤ s.replies.length) && (s.replies.take n).all Reply.ack

/-- Address `a` lies in the range (spec/20_memory.md R60). -/
def inRange (start count : Byte) (a : Nat) : Bool := decide (start.toNat ≤ a) && decide (a < start.toNat + count.toNat)

/-- The state `t` with the environment of `s`: two states that are equal after this differ in the environment at most. -/
def State.withEnvOf (t s : State) : State :=
  { t with chip := s.chip, ptr := s.ptr, chipPtrNext := s.chipPtrNext, history := s.history, replies := s.replies }

/-- The faults of `precheck` for a bus command, in their order (spec/41_bus_phases.md R110). -/
def FaultsByPrecheck (i : Instr) : Prop :=
  ∀ s : State,
    (s.en = false → exec i s = .fault (.disabled i)) ∧
    (s.en = true → (s.pend ≠ none ∨ s.stopreq = true) → exec i s = .fault (.busyViolation i s.pend))

/-! ## Words -/

/-- The opcodes of format N (spec/30_encoding.md R81, R89). -/
def formatNOpcodes : List Byte := [0x01, 0x02, 0x03, 0x04, 0x10, 0x11, 0x12, 0x13, 0x15, 0x17, 0x18, 0x21]

/-- The 19 opcodes (R89). -/
def opcodes : List Byte := formatNOpcodes ++ [0x14, 0x16, 0x20, 0x30, 0x31, 0x40, 0x41]

/-- A word is illegal: the list of spec/30_encoding.md R90, clause by clause. -/
def IllegalWord (w : CmdWord) : Prop :=
  opByte w ∉ opcodes ∨
  (opByte w ∈ formatNOpcodes ∧ (aByte w ≠ 0 ∨ bByte w ≠ 0)) ∨
  (opByte w ∈ ([0x14, 0x16, 0x20] : List Byte) ∧ aByte w ≠ 0) ∨
  (opByte w = 0x40 ∧ bByte w ≠ 0) ∨
  (opByte w ∈ ([0x40, 0x41] : List Byte) ∧ 58 < (aByte w).toNat)

/-! ## The field table -/

/-- A row of the field table as spec/30_encoding.md R88 prints it. -/
structure FieldTableRow where
  field : Field
  id : Byte
  off : ImgIdx
  lsb : Nat
  width : Nat
  deriving DecidableEq, Repr

/-- The 59 rows of R88, in its order. -/
def fieldTableRows : List FieldTableRow :=
  [⟨.secOnes, 0, 0x00, 0, 4⟩, ⟨.secTens, 1, 0x00, 4, 3⟩, ⟨.minOnes, 2, 0x01, 0, 4⟩, ⟨.minTens, 3, 0x01, 4, 3⟩,
    ⟨.hrOnes, 4, 0x02, 0, 4⟩, ⟨.hrTens, 5, 0x02, 4, 2⟩, ⟨.hrPm, 6, 0x02, 5, 1⟩, ⟨.hr12, 7, 0x02, 6, 1⟩,
    ⟨.dow, 8, 0x03, 0, 3⟩, ⟨.dateOnes, 9, 0x04, 0, 4⟩, ⟨.dateTens, 10, 0x04, 4, 2⟩, ⟨.monOnes, 11, 0x05, 0, 4⟩,
    ⟨.monTens, 12, 0x05, 4, 1⟩, ⟨.century, 13, 0x05, 7, 1⟩, ⟨.yrOnes, 14, 0x06, 0, 4⟩] ++
  [⟨.yrTens, 15, 0x06, 4, 4⟩, ⟨.a1SecOnes, 16, 0x07, 0, 4⟩, ⟨.a1SecTens, 17, 0x07, 4, 3⟩, ⟨.a1M1, 18, 0x07, 7, 1⟩,
    ⟨.a1MinOnes, 19, 0x08, 0, 4⟩, ⟨.a1MinTens, 20, 0x08, 4, 3⟩, ⟨.a1M2, 21, 0x08, 7, 1⟩, ⟨.a1HrOnes, 22, 0x09, 0, 4⟩,
    ⟨.a1HrTens, 23, 0x09, 4, 2⟩, ⟨.a1HrPm, 24, 0x09, 5, 1⟩, ⟨.a1Hr12, 25, 0x09, 6, 1⟩, ⟨.a1M3, 26, 0x09, 7, 1⟩,
    ⟨.a1DdOnes, 27, 0x0A, 0, 4⟩, ⟨.a1DdTens, 28, 0x0A, 4, 2⟩, ⟨.a1Dydt, 29, 0x0A, 6, 1⟩] ++
  [⟨.a1M4, 30, 0x0A, 7, 1⟩, ⟨.a2MinOnes, 31, 0x0B, 0, 4⟩, ⟨.a2MinTens, 32, 0x0B, 4, 3⟩, ⟨.a2M2, 33, 0x0B, 7, 1⟩,
    ⟨.a2HrOnes, 34, 0x0C, 0, 4⟩, ⟨.a2HrTens, 35, 0x0C, 4, 2⟩, ⟨.a2HrPm, 36, 0x0C, 5, 1⟩, ⟨.a2Hr12, 37, 0x0C, 6, 1⟩,
    ⟨.a2M3, 38, 0x0C, 7, 1⟩, ⟨.a2DdOnes, 39, 0x0D, 0, 4⟩, ⟨.a2DdTens, 40, 0x0D, 4, 2⟩, ⟨.a2Dydt, 41, 0x0D, 6, 1⟩,
    ⟨.a2M4, 42, 0x0D, 7, 1⟩, ⟨.a1IE, 43, 0x0E, 0, 1⟩, ⟨.a2IE, 44, 0x0E, 1, 1⟩] ++
  [⟨.intcn, 45, 0x0E, 2, 1⟩, ⟨.rs1, 46, 0x0E, 3, 1⟩, ⟨.rs2, 47, 0x0E, 4, 1⟩, ⟨.conv, 48, 0x0E, 5, 1⟩,
    ⟨.bbsqw, 49, 0x0E, 6, 1⟩, ⟨.eosc, 50, 0x0E, 7, 1⟩, ⟨.a1F, 51, 0x0F, 0, 1⟩, ⟨.a2F, 52, 0x0F, 1, 1⟩,
    ⟨.bsy, 53, 0x0F, 2, 1⟩, ⟨.en32K, 54, 0x0F, 3, 1⟩, ⟨.osf, 55, 0x0F, 7, 1⟩, ⟨.aging, 56, 0x10, 0, 8⟩,
    ⟨.tempInt, 57, 0x11, 0, 8⟩, ⟨.tempFrac, 58, 0x12, 6, 2⟩]

/-! ## What a transaction puts on the bus, the earliest phase first -/

/-- The data phases of a REFRESH of `n` bytes from `a`: ACK for all but the last, NACK for the last (R140). -/
def receivedTrace (m : Memory) (a : Nat) : Nat → List BusEvent
  | 0 => []
  | 1 => [.received (m.read a) false]
  | n + 2 => .received (m.read a) true :: receivedTrace m (a + 1) (n + 1)

/-- The data phases of a COMMIT of `n` bytes from `a`, all acknowledged (R141). -/
def sentTrace (m : Memory) (a : Nat) : Nat → List BusEvent
  | 0 => []
  | n + 1 => .sent (m.read a) true :: sentTrace m (a + 1) n

/-- The phases of an acknowledged REFRESH (R140). -/
def refreshTrace (s : State) (start count : Byte) : List BusEvent :=
  [.start (s.bus != BusState.idle), .addr s.params.addrClock false true, .sent start true, .start true,
    .addr s.params.addrClock true true] ++ receivedTrace s.chip start.toNat count.toNat ++ [.stop]

/-- The phases of an acknowledged COMMIT (R141). -/
def commitTrace (s : State) (start count : Byte) : List BusEvent :=
  [.start (s.bus != BusState.idle), .addr s.params.addrClock false true, .sent start true] ++
    sentTrace s.img start.toNat count.toNat ++ [.stop]

/-- The host's own expansion of a COMMIT into commands: the data bytes (R141, R133). -/
def transmitCommands (m : Memory) (a : Nat) : Nat → List Instr
  | 0 => []
  | n + 1 => .sendbyte (m.read (imgIdx a).val) :: .wait :: transmitCommands m (a + 1) n

/-- The host's own expansion of a COMMIT into commands (R141, R133). -/
def commitCommands (s : State) (start count : Byte) : List Instr :=
  [.beginXfer s.params.addrClock false, .sendbyte start, .wait] ++
    transmitCommands s.img start.toNat count.toNat ++ [.endXfer]

/-! ## The invariant -/

/-- Both byte spaces are in canonical form. -/
def MemoriesCanonical (s : State) : Prop := s.img.wf = true ∧ s.chip.wf = true

/-- `STATUS` holds one of the eleven codes: "No other value is ever written" (spec/10_state.md R27). -/
def StatusIsACode (s : State) : Prop := ∃ c, s.status = statusCode c

/-- `STOPREQ` is 1 exactly while a STOP is pending (R24). -/
def StopreqMarksStop (s : State) : Prop := s.stopreq = true ↔ s.pend = some .stop

/-- `DONE` is 0 while a phase is pending and while the bus is wedged (R23, R127). -/
def DoneMeansComplete (s : State) : Prop := s.done = true → s.pend = none ∧ s.wedged = false

/-- A disabled engine is idle (spec/40_engine_control.md R102). -/
def PoweredDownIsIdle (s : State) : Prop := s.en = false → s.pend = none ∧ s.bus = .idle

/-- A pending phase is one that the bus state admits, or one that wedged (spec/41_bus_phases.md R128). -/
def PendingIsLegal (s : State) : Prop :=
  ∀ p, s.pend = some p → legality p s.bus = .ok ∨ (legality p s.bus = .wedge ∧ s.wedged = true)

/-- What every state of the machine satisfies. -/
def StateInv (s : State) : Prop :=
  MemoriesCanonical s ∧ StatusIsACode s ∧ StopreqMarksStop s ∧ DoneMeansComplete s ∧ PoweredDownIsIdle s ∧
    PendingIsLegal s ∧ paramsOk s.params = true

end Sys2Proof.Machine
end

