-- ==== Sys2Proof/Certificates/Slice0/Obligations.lean ====
section
/-! DEFINITION. The statements for the provers. Each docstring names the rule of spec/ it formalises, or says that it is
derived. Results are given as whole states, `{ s with … }`: what is not named is unchanged, every byte of the image and of the
chip included. -/

open Sys2Proof Sys2Proof.Machine

/-! ## Words and the step -/

/-- The six example words of spec/30_encoding.md R92 decode to the commands they are written for. -/
def Obligations.SpecExampleWordsDecode : Prop :=
  decode 0x100000 = .ok .start ∧ decode 0x16000E = .ok (.sendbyte 0x0E) ∧ decode 0x2000D1 = .ok (.beginXfer 0x68 true) ∧
  decode 0x300013 = .ok (.refresh 0 19) ∧ decode 0x400100 = .ok .getfSecTens ∧ decode 0x413400 = .ok (.setfA2F 0)

/-- Every command decodes from its own word (R80 to R89). -/
def Obligations.DecodeOfEncode : Prop := ∀ i : Instr, decode (encode i) = .ok i

/-- A word that decodes is the word of the command it decodes to: each legal word has one meaning (R80 to R90). -/
def Obligations.EncodeOfDecode : Prop := ∀ (w : CmdWord) (i : Instr), decode w = .ok i → encode i = w

/-- R90: issuing a word is `IllegalCommand` exactly when one of the rule's clauses holds, in every state, before any other
check. -/
def Obligations.IllegalCommandExactlyForIllegalWords : Prop :=
  ∀ (s : State) (w : CmdWord) (rest : List Event), s.todo = [] → s.agenda = .cmd w :: rest →
    (step s = .fault (.illegalCommand w) ↔ IllegalWord w)

/-- A step with the port ready and the host next runs the decoded command; the word leaves the agenda, nothing else changes. -/
def Obligations.StepRunsTheDecodedCommand : Prop :=
  ∀ (s : State) (w : CmdWord) (rest : List Event) (i : Instr), s.todo = [] → s.agenda = .cmd w :: rest →
    decode w = .ok i → step s = exec i { s with agenda := rest }

/-- No command is refused, and no step is. -/
def Obligations.NothingIsRefused : Prop :=
  (∀ (i : Instr) (s : State) (r : Refusal), exec i s ≠ .refused r) ∧ (∀ (s : State) (r : Refusal), step s ≠ .refused r)

/-- R36: while a command is in progress no command word is taken from the agenda: the host never has two in flight. -/
def Obligations.NoCommandWhileOneIsInProgress : Prop :=
  ∀ (s t : State) (w : CmdWord) (rest : List Event), s.todo ≠ [] → s.agenda = .cmd w :: rest → step s = .next t →
    t.agenda = .cmd w :: rest

/-! ## Reset -/

/-- R40, the values the spec decides; nothing is said of `DATA`, `SEL` and the image, which it leaves unspecified. The two parameters to which R5 gives a value
have it (entries 4 and 18). -/
def Obligations.ResetLeavesTheDecidedValues : Prop :=
  State.reset.en = false ∧ State.reset.div = 0x00 ∧ State.reset.acken = false ∧ State.reset.done = false ∧
  State.reset.stopreq = false ∧ State.reset.status = 0xF8 ∧ State.reset.pend = none ∧ State.reset.bus = .idle ∧
  State.reset.wedged = false ∧ State.reset.cmdReady = true ∧
  State.reset.params.nackCompletes = true ∧ State.reset.params.ft = fieldTable

/-- The reset input in any state, a command in progress or not (R39, R40, R200; the model's choice for `WEDGED` with the
slaves still powered: entry 2): the decided values, no command accepted or in progress, the chip, its pointer, the bus
history and the stored answers kept; a power-on of the slaves ends an open write part of the chip, the model's choice of
entry 24. -/
def Obligations.RstInputResetsTheBlockOnly : Prop :=
  ∀ (s : State) (slaves : Bool) (rest : List Event), s.agenda = .rst slaves :: rest → ∃ t, step s = .next t ∧
    t.en = false ∧ t.div = 0x00 ∧ t.acken = false ∧ t.done = false ∧ t.stopreq = false ∧ t.status = 0xF8 ∧
    t.pend = none ∧ t.bus = .idle ∧ t.wedged = (s.wedged && !slaves) ∧ t.todo = [] ∧ t.rsp = none ∧
    t.chip = s.chip ∧ t.ptr = s.ptr ∧ t.history = s.history ∧ t.replies = s.replies ∧
    t.chipPtrNext = (s.chipPtrNext && !slaves) ∧ t.params = s.params ∧ t.fair = s.fair ∧ t.agenda = rest

/-! ## Engine control commands -/

/-- R100: INIT and its word. The value of `DIV_CONST`, the formula of R215 with divisions of natural numbers, is the model's
reading (entry 15, DEDUCED). -/
def Obligations.InitLoadsTheDividerAndEnables : Prop :=
  encode .init = 0x010000 ∧
  ∀ s : State,
    (s.pend = none → s.stopreq = false → s.bus = .idle →
      exec .init s = .next { s with div := BitVec.ofNat 8 ((s.params.fSys / s.params.fBus - 16) / 2), en := true,
                                    todo := [], rsp := some 0 }) ∧
    ((s.pend ≠ none ∨ s.stopreq = true ∨ s.bus ≠ .idle) → exec .init s = .fault (.busyViolation .init s.pend))

/-- R101: ENABLE and its word. -/
def Obligations.EnableSetsEnOnly : Prop :=
  encode .enable = 0x020000 ∧ ∀ s : State, exec .enable s = .next { s with en := true, todo := [], rsp := some 0 }

/-- R102: DISABLE and its word. -/
def Obligations.DisableClearsEnWhenIdle : Prop :=
  encode .disable = 0x030000 ∧
  ∀ s : State,
    (s.pend = none → s.stopreq = false → s.bus = .idle →
      exec .disable s = .next { s with en := false, todo := [], rsp := some 0 }) ∧
    ((s.pend ≠ none ∨ s.stopreq = true ∨ s.bus ≠ .idle) → exec .disable s = .fault (.busyViolation .disable s.pend))

/-- STATUS and its word (R103); while a phase is pending the response is some byte, whatever it is: the one drawn, the model's
form of R103's `draw(8)` (entry 8, DESIGN CHOICE). -/
def Obligations.StatusReadsTheStatusField : Prop :=
  encode .status = 0x040000 ∧
  ∀ s : State,
    (s.en = true → s.pend = none → exec .status s = .next { s with todo := [], rsp := some s.status }) ∧
    (s.en = true → s.pend ≠ none →
      exec .status s = .next { s with draws := s.draws + 1, todo := [], rsp := some (Config.draw8 s.draws) }) ∧
    (s.en = false → exec .status s = .fault (.disabled .status))

/-! ## Phase commands -/

/-- R111: START and its word. -/
def Obligations.StartIssuesByBusState : Prop :=
  encode .start = 0x100000 ∧ FaultsByPrecheck .start ∧
  ∀ s : State, s.en = true → s.pend = none → s.stopreq = false →
    (s.bus = .idle ∨ s.bus = .mt ∨ s.bus = .mrLast ∨ s.bus = .nacked →
      exec .start s = .next { s with done := false, pend := some .start, todo := [], rsp := some 0 }) ∧
    (s.bus = .mr →
      exec .start s = .next { s with done := false, pend := some .start, wedged := true, todo := [], rsp := some 0 }) ∧
    (s.bus = .started → exec .start s = .fault (.phaseOrder .start .started))

/-- R112: STOP and its word. -/
def Obligations.StopIssuesByBusState : Prop :=
  encode .stop = 0x110000 ∧ FaultsByPrecheck .stop ∧
  ∀ s : State, s.en = true → s.pend = none → s.stopreq = false →
    (s.bus = .mt ∨ s.bus = .mrLast ∨ s.bus = .nacked →
      exec .stop s = .next { s with stopreq := true, done := false, pend := some .stop, todo := [], rsp := some 0 }) ∧
    (s.bus = .mr →
      exec .stop s =
        .next { s with stopreq := true, done := false, pend := some .stop, wedged := true, todo := [], rsp := some 0 }) ∧
    (s.bus = .idle ∨ s.bus = .started → exec .stop s = .fault (.phaseOrder .stop s.bus))

/-- R115: SETADDR and its word, in every bus state. -/
def Obligations.SetaddrLoadsTheAddressByte : Prop :=
  ∀ (addr : BusAddr) (read : Bool),
    encode (.setaddr addr read) = 0x140000 ||| addr.setWidth 24 <<< 1 ||| (BitVec.ofBool read).setWidth 24 ∧
    FaultsByPrecheck (.setaddr addr read) ∧
    ∀ s : State, s.en = true → s.pend = none → s.stopreq = false →
      exec (.setaddr addr read) s = .next { s with data := addr ++ BitVec.ofBool read, todo := [], rsp := some 0 }

/-- R116: XFERADDR and its word. -/
def Obligations.XferaddrIssuesOnlyAfterStart : Prop :=
  encode .xferaddr = 0x150000 ∧ FaultsByPrecheck .xferaddr ∧
  ∀ s : State, s.en = true → s.pend = none → s.stopreq = false →
    (s.bus = .started →
      exec .xferaddr s = .next { s with done := false, pend := some .addr, todo := [], rsp := some 0 }) ∧
    (s.bus ≠ .started → exec .xferaddr s = .fault (.phaseOrder .xferaddr s.bus))

/-- R117: SENDBYTE and its word. -/
def Obligations.SendbyteIssuesByBusState : Prop :=
  ∀ d : Byte,
    encode (.sendbyte d) = 0x160000 ||| d.setWidth 24 ∧
    FaultsByPrecheck (.sendbyte d) ∧
    ∀ s : State, s.en = true → s.pend = none → s.stopreq = false →
      (s.bus = .mt →
        exec (.sendbyte d) s =
          .next { s with data := d, acken := false, done := false, pend := some .tx, todo := [], rsp := some 0 }) ∧
      (s.bus = .nacked →
        exec (.sendbyte d) s =
          .next { s with data := d, acken := false, done := false, pend := some .tx, wedged := true,
                         todo := [], rsp := some 0 }) ∧
      (s.bus ≠ .mt → s.bus ≠ .nacked → exec (.sendbyte d) s = .fault (.phaseOrder (.sendbyte d) s.bus))

/-- R118 and R119 where they fault: the precondition, and a bus state that is neither `MR` nor `Nacked`. -/
def Obligations.ReceiveFaultsOutsideMasterReceiver : Prop :=
  FaultsByPrecheck .recv ∧ FaultsByPrecheck .recvlast ∧
  ∀ s : State, s.en = true → s.pend = none → s.stopreq = false → s.bus ≠ .mr → s.bus ≠ .nacked →
    exec .recv s = .fault (.phaseOrder .recv s.bus) ∧ exec .recvlast s = .fault (.phaseOrder .recvlast s.bus)

/-- R118 with the clock chip selected (R56): RECV in `MR` returns `Chip[PTR]`, answers ACK, stays in `MR`, and the chip steps
its pointer. That the awaited Engine
step is taken is the fairness of entry 9. -/
def Obligations.RecvReturnsTheChipByte : Prop :=
  ∀ s : State, s.quiet = true → s.served = true → s.bus = .mr → s.sel = s.params.addrClock → s.ptr.toNat ≤ 0x12 →
    exec .recv s =
      .next { s with data := s.chip.read s.ptr.toNat, acken := true, done := true, status := 0x50,
                     ptr := if s.ptr = 0x12 then 0x00 else s.ptr + 1,
                     history := .received (s.chip.read s.ptr.toNat) true :: s.history,
                     todo := [], rsp := some (s.chip.read s.ptr.toNat) }

/-- R119 with the clock chip selected (R56): RECVLAST in `MR` returns `Chip[PTR]`, answers NACK, and the bus state becomes
`MRLast`. That the awaited Engine
step is taken is the fairness of entry 9. -/
def Obligations.RecvlastReturnsTheChipByte : Prop :=
  ∀ s : State, s.quiet = true → s.served = true → s.bus = .mr → s.sel = s.params.addrClock → s.ptr.toNat ≤ 0x12 →
    exec .recvlast s =
      .next { s with data := s.chip.read s.ptr.toNat, acken := false, done := true, status := 0x58, bus := .mrLast,
                     ptr := if s.ptr = 0x12 then 0x00 else s.ptr + 1,
                     history := .received (s.chip.read s.ptr.toNat) false :: s.history,
                     todo := [], rsp := some (s.chip.read s.ptr.toNat) }

/-- RECV and RECVLAST from a slave the spec gives no law for (R52): they complete with whatever byte `b` the slave has ready,
and the chip is untouched. That the awaited Engine
step is taken is the fairness of entry 9. -/
def Obligations.ReceiveFromAnotherSlave : Prop :=
  ∀ (s : State) (r : Reply) (rs : List Reply), s.quiet = true → s.served = true → s.bus = .mr →
    s.sel ≠ s.params.addrClock → s.replies = r :: rs →
    exec .recv s =
      .next { s with data := r.data, acken := true, done := true, status := 0x50, replies := rs,
                     history := .received r.data true :: s.history, todo := [], rsp := some r.data } ∧
    exec .recvlast s =
      .next { s with data := r.data, acken := false, done := true, status := 0x58, bus := .mrLast, replies := rs,
                     history := .received r.data false :: s.history, todo := [], rsp := some r.data }

/-- R113: WAIT faults when disabled, completes at once when `DONE` is 1, and otherwise completes with the Engine's step of the
pending phase. That the awaited Engine
step is taken is the fairness of entry 9. -/
def Obligations.WaitCompletesWithThePhase : Prop :=
  ∀ s : State,
    (s.en = false → exec .wait s = .fault (.disabled .wait)) ∧
    (s.en = true → s.done = true → exec .wait s = .next { s with todo := [], rsp := some 0 }) ∧
    (s.en = true → s.done = false → s.served = true → (engineStep s).done = true →
      exec .wait s = .next { engineStep s with todo := [], rsp := some 0 })

/-- R114: WAITSTOP faults when disabled, completes at once when no stop is in progress (a pending phase of another kind stays
pending), and otherwise completes with the Engine's step. That the awaited Engine
step is taken is the fairness of entry 9. -/
def Obligations.WaitstopCompletesWithTheStop : Prop :=
  ∀ s : State,
    (s.en = false → exec .waitstop s = .fault (.disabled .waitstop)) ∧
    (s.en = true → s.stopreq = false → exec .waitstop s = .next { s with todo := [], rsp := some 0 }) ∧
    (s.en = true → s.stopreq = true → s.served = true → (engineStep s).stopreq = false →
      exec .waitstop s = .next { engineStep s with todo := [], rsp := some 0 })

/-! ## The Engine -/

/-- R120: the Engine has a step exactly when `EN = 1`, a phase is pending and the bus is not wedged. At its turn it takes it,
and without one nothing changes; when no move is placed the step is taken where the Engine is fair (entry 9); and the step ends
with `PEND = None`, but for a NACKed phase when `NACK_COMPLETES` is false, which wedges. -/
def Obligations.EngineStepsExactlyWhenReady : Prop :=
  (∀ (s : State) (rest : List Event), s.todo = [] → s.agenda = .engine :: rest →
    ((s.en = false ∨ s.pend = none ∨ s.wedged = true) → step s = .next { s with agenda := rest, rsp := none }) ∧
    (s.en = true → s.pend ≠ none → s.wedged = false → step s = .next { engineStep s with agenda := rest, rsp := none })) ∧
  (∀ s : State, s.todo = [] → s.agenda = [] →
    ((s.en = false ∨ s.pend = none ∨ s.wedged = true ∨ s.fair = false) → step s = .next { s with rsp := none }) ∧
    (s.en = true → s.pend ≠ none → s.wedged = false → s.fair = true → step s = .next { engineStep s with rsp := none })) ∧
  (∀ s : State, s.en = true → s.pend ≠ none → s.wedged = false →
    (engineStep s).pend = none ∨
      (s.params.nackCompletes = false ∧ (engineStep s).wedged = true ∧ (engineStep s).pend = s.pend))

/-- R121: completion of a START. -/
def Obligations.EngineCompletesStart : Prop :=
  ∀ s : State, s.en = true → s.wedged = false → s.pend = some .start →
    engineStep s =
      { s with status := if s.bus = .idle then 0x08 else 0x10, bus := .started, done := true, pend := none,
               chipPtrNext := false, history := .start (s.bus != .idle) :: s.history }

/-- Completion of an address phase (R122), by the slave's answer: acknowledged, not acknowledged, and not acknowledged with
`NACK_COMPLETES` false; that the bus history records the NACK there too is the model's choice (entry 17). -/
def Obligations.EngineCompletesAddress : Prop :=
  ∀ s : State, s.en = true → s.wedged = false → s.pend = some .addr →
    let a := s.data.extractLsb' 1 7
    let read := s.data.getLsbD 0
    (addrAnswer s a read = true →
      engineStep s =
        { s with sel := a, status := if read then 0x40 else 0x18, bus := if read then .mr else .mt, done := true,
                 pend := none, replies := s.replies.tail, history := .addr a read true :: s.history,
                 chipPtrNext := !read && (a == s.params.addrClock) }) ∧
    (addrAnswer s a read = false → s.params.nackCompletes = true →
      engineStep s =
        { s with status := if read then 0x48 else 0x20, bus := .nacked, done := true, pend := none,
                 replies := s.replies.tail, history := .addr a read false :: s.history, chipPtrNext := false }) ∧
    (addrAnswer s a read = false → s.params.nackCompletes = false →
      engineStep s =
        { s with wedged := true, replies := s.replies.tail, history := .addr a read false :: s.history,
                 chipPtrNext := false })

/-- R123: completion of a transmitted byte, by the slave's answer; the block's part (the chip's part is
`ClockChipTakesSentBytes`). -/
def Obligations.EngineCompletesTransmit : Prop :=
  ∀ s : State, s.en = true → s.wedged = false → s.pend = some .tx →
    (writeAnswer s s.data = true →
      (engineStep s).withEnvOf s = { s with status := 0x28, done := true, pend := none }) ∧
    (writeAnswer s s.data = false → s.params.nackCompletes = true →
      (engineStep s).withEnvOf s = { s with status := 0x30, bus := .nacked, done := true, pend := none }) ∧
    (writeAnswer s s.data = false → s.params.nackCompletes = false →
      (engineStep s).withEnvOf s = { s with wedged := true })

/-- R124 and R125: completion of a received byte; the block's part. The byte is the environment's answer. -/
def Obligations.EngineCompletesReceive : Prop :=
  ∀ s : State, s.en = true → s.wedged = false →
    (s.pend = some .rxAck →
      (engineStep s).withEnvOf s = { s with data := readAnswer s true, status := 0x50, done := true, pend := none }) ∧
    (s.pend = some .rxNack →
      (engineStep s).withEnvOf s =
        { s with data := readAnswer s false, status := 0x58, bus := .mrLast, done := true, pend := none })

/-- R126: completion of a STOP; `DONE` is not written. -/
def Obligations.EngineCompletesStop : Prop :=
  ∀ s : State, s.en = true → s.wedged = false → s.pend = some .stop →
    engineStep s =
      { s with bus := .idle, stopreq := false, status := 0xF8, pend := none, chipPtrNext := false,
               history := .stop :: s.history }

/-- R55, R57: what the clock chip does with a byte it acknowledges: the first of a write transaction is its pointer, a later
one goes to `Chip[PTR]` and steps the pointer; a byte sent to another slave changes nothing in it, and neither does one it does
not acknowledge, which is the model's reading (entry 6, DEDUCED). -/
def Obligations.ClockChipTakesSentBytes : Prop :=
  ∀ s : State, s.en = true → s.wedged = false → s.pend = some .tx →
    (s.sel = s.params.addrClock → writeAnswer s s.data = true → s.chipPtrNext = true →
      (engineStep s).ptr = s.data ∧ (engineStep s).chip = s.chip ∧ (engineStep s).chipPtrNext = false) ∧
    (s.sel = s.params.addrClock → writeAnswer s s.data = true → s.chipPtrNext = false → s.ptr.toNat ≤ 0x12 →
      (engineStep s).ptr = (if s.ptr = 0x12 then 0x00 else s.ptr + 1) ∧
      ∀ a, (engineStep s).chip.read a = if a = s.ptr.toNat then s.data else s.chip.read a) ∧
    ((s.sel ≠ s.params.addrClock ∨ writeAnswer s s.data = false) →
      (engineStep s).ptr = s.ptr ∧ (engineStep s).chip = s.chip ∧ (engineStep s).chipPtrNext = s.chipPtrNext)

/-- R58, R67: the chip changes one of its own registers between commands; no other register, the pointer, the image and no
element of the block change. -/
def Obligations.ChipTimeChangesOneChipRegister : Prop :=
  ∀ (s : State) (a : ImgIdx) (v : Byte) (rest : List Event), s.todo = [] → s.agenda = .chipTime a v :: rest →
    ∃ t, step s = .next t ∧ t = { s with chip := t.chip, agenda := rest, rsp := none } ∧
      ∀ b, t.chip.read b = if b = a.val then v else s.chip.read b

/-! ## Wedges and hangs -/

/-- R127, "Once `WEDGED = 1`": whatever agent moves, short of `rst`, the pending phase stays pending, `DONE` and `STOPREQ`
stay as they are, and so do the bus state, `STATUS` and the bus itself. -/
def Obligations.WedgedBusStaysWedged : Prop :=
  ∀ (s t : State) (p : Phase), s.wedged = true → s.pend = some p → (∀ (b : Bool) (rest : List Event), s.agenda ≠ .rst b :: rest) →
    step s = .next t →
    t.wedged = true ∧ t.pend = some p ∧ t.done = s.done ∧ t.stopreq = s.stopreq ∧ t.bus = s.bus ∧
    t.status = s.status ∧ t.data = s.data ∧ t.sel = s.sel ∧ t.history = s.history

/-- R31: `WEDGED` is cleared only by a reset of the block together with the slaves (entry 2), by no command and no other
agent. -/
def Obligations.OnlyResetClearsWedged : Prop :=
  ∀ s t : State, s.wedged = true → step s = .next t → t.wedged = false → ∃ rest, s.agenda = .rst true :: rest

/-- R184, "wait with nothing pending", the waits on a wedged bus (R113, R114, R127), and "a phase that the bus never completes",
where the Engine's step is never taken (R120; `fair`, entry 9): a WAIT with `DONE = 0`, or a WAITSTOP with `STOPREQ = 1`, and no
Engine step to come blocks, and from then on the step changes nothing. -/
def Obligations.WaitWithoutEngineStepHangs : Prop :=
  ∀ s : State, s.en = true → s.settled = true → (s.pend = none ∨ s.wedged = true ∨ s.fair = false) →
    (s.done = false →
      exec .wait s = .next { s with todo := [.awaitDone], rsp := none } ∧
      Hangs { s with todo := [.awaitDone], rsp := none }) ∧
    (s.stopreq = true →
      exec .waitstop s = .next { s with todo := [.awaitStop], rsp := none } ∧
      Hangs { s with todo := [.awaitStop], rsp := none })

/-- R184, "wrong wait after STOP" (R112, R113, R126): the stop completes, `DONE` stays 0, and the WAIT hangs. That the awaited Engine
step is taken is the fairness of entry 9. -/
def Obligations.WaitAfterStopHangs : Prop :=
  ∀ s : State, s.en = true → s.wedged = false → s.done = false → s.served = true → s.pend = some .stop →
    ∃ t, exec .wait s = .next t ∧ t.bus = .idle ∧ t.stopreq = false ∧ t.pend = none ∧ t.status = 0xF8 ∧ t.done = false ∧
      Hangs t

/-- R118, R119, R127: a receive after an unnoticed NACK is accepted, wedges, and never returns. -/
def Obligations.ReceiveAfterNackHangs : Prop :=
  ∀ s : State, s.quiet = true → s.bus = .nacked → s.settled = true →
    (∃ t, exec .recv s = .next t ∧ t.wedged = true ∧ t.pend = some .rxAck ∧ t.acken = true ∧ t.done = false ∧ Hangs t) ∧
    (∃ t, exec .recvlast s = .next t ∧ t.wedged = true ∧ t.pend = some .rxNack ∧ t.acken = false ∧ t.done = false ∧ Hangs t)

/-- The command in progress (R36, R120, R133; the agenda is entry 9, the steps left are entry 10). Over any number of idle
moments it stays as it is. An Engine move that brings about what it awaits lets it go on with the steps it has left: a WAIT and
a WAITSTOP complete, a RECV returns the byte. And a command that an idle moment blocked does what it would have done without
that moment. -/
def Obligations.CommandInProgressOutlastsIdleMomentsAndResumes : Prop :=
  (∀ (n : Nat) (s : State) (rest : List Event), s.todo ≠ [] → s.rsp = none → s.agenda = List.replicate n .idle ++ rest →
    Host.Core.run Sys2Proof.core n s = .next { s with agenda := rest }) ∧
  (∀ (s : State) (rest : List Event) (left : List Micro), s.agenda = .engine :: rest →
    (s.todo = .awaitDone :: left → s.done = false → (engineStep s).done = true →
      step s = perform left { engineStep s with agenda := rest }) ∧
    (s.todo = .awaitStop :: left → s.stopreq = true → (engineStep s).stopreq = false →
      step s = perform left { engineStep s with agenda := rest })) ∧
  (∀ (s : State) (rest : List Event), s.agenda = .engine :: rest →
    (s.todo = [.awaitDone] → s.done = false → (engineStep s).done = true →
      step s = .next { engineStep s with agenda := rest, todo := [], rsp := some 0 }) ∧
    (s.todo = [.awaitStop] → s.stopreq = true → (engineStep s).stopreq = false →
      step s = .next { engineStep s with agenda := rest, todo := [], rsp := some 0 }) ∧
    (s.todo = [.awaitDone, .respondData] → s.done = false → (engineStep s).done = true →
      step s = .next { engineStep s with agenda := rest, todo := [], rsp := some (engineStep s).data })) ∧
  (∀ (i : Instr) (s t : State) (before after : List Event), s.agenda = before ++ .idle :: after → exec i s = .next t →
    t.cmdReady = false → t.agenda = .idle :: after → interrupts after = false →
    step t = .next { t with agenda := after } ∧
    step { t with agenda := after } = exec i { s with agenda := before ++ after })

/-! ## Transfer wrappers -/

/-- R130: BEGIN completes with the address phase, acknowledged, or not acknowledged where `NACK_COMPLETES`; the answer is
the slave's next one. That the awaited Engine steps are taken is the fairness of entry 9. -/
def Obligations.BeginCompletesTheAddressPhase : Prop :=
  ∀ (s : State) (addr : BusAddr) (read : Bool) (r : Reply) (rs : List Reply), s.readyToStart = true → s.served = true →
    (s.params.nackCompletes = true ∨ r.ack = true) → s.replies = r :: rs →
    exec (.beginXfer addr read) s =
      .next { s with
        data := addr ++ BitVec.ofBool read, done := true, pend := none,
        status := if r.ack then (if read then 0x40 else 0x18) else (if read then 0x48 else 0x20),
        bus := if r.ack then (if read then .mr else .mt) else .nacked,
        sel := if r.ack then addr else s.sel,
        chipPtrNext := r.ack && !read && (addr == s.params.addrClock),
        replies := rs, history := .addr addr read r.ack :: .start (s.bus != .idle) :: s.history,
        todo := [], rsp := some 0 }

/-- R131: END completes the stop from `MT`, `MRLast` and `Nacked`. That the awaited Engine
step is taken is the fairness of entry 9. -/
def Obligations.EndCompletesTheStop : Prop :=
  ∀ s : State, s.quiet = true → s.served = true → (s.bus = .mt ∨ s.bus = .mrLast ∨ s.bus = .nacked) →
    exec .endXfer s =
      .next { s with bus := .idle, stopreq := false, done := false, status := 0xF8, pend := none, chipPtrNext := false,
                     history := .stop :: s.history, todo := [], rsp := some 0 }

/-- R130, R131 in `MR`: the first step wedges and the wrapper never returns. -/
def Obligations.WrappersHangInMasterReceiver : Prop :=
  ∀ (s : State) (addr : BusAddr) (read : Bool), s.quiet = true → s.settled = true → s.bus = .mr →
    (∃ t, exec (.beginXfer addr read) s = .next t ∧ t.pend = some .start ∧ t.wedged = true ∧ t.done = false ∧ Hangs t) ∧
    (∃ t, exec .endXfer s = .next t ∧ t.pend = some .stop ∧ t.stopreq = true ∧ t.wedged = true ∧ t.done = false ∧ Hangs t)

/-- R133: BEGIN and END are their expansions: the host issuing the steps one after another, in any environment and any order
of the agents' moves, gets the same state, fault, or block. -/
def Obligations.WrappersAreTheirExpansions : Prop :=
  ∀ (s : State) (i : Instr) (is : List Instr),
    ((∃ addr read, i = .beginXfer addr read ∧ is = [.start, .wait, .setaddr addr read, .xferaddr, .wait]) ∨
      (i = .endXfer ∧ is = [.stop, .waitstop])) →
    (∀ t, hostIssues is s = .next t → t.cmdReady = true → exec i s = .next t) ∧
    (∀ t, hostIssues is s = .next t → t.cmdReady = false →
      ∃ u, exec i s = .next u ∧ u.cmdReady = false ∧ { u with todo := t.todo } = t) ∧
    (∀ f, hostIssues is s = .fault f → exec i s = .fault f)

/-- R133: COMMIT of a valid range is its expansion (R141): BEGIN, the pointer byte, every image byte in ascending order, END. -/
def Obligations.CommitIsItsExpansion : Prop :=
  ∀ (s : State) (start count : Byte), validRange start count = true →
    (∀ t, hostIssues (commitCommands s start count) s = .next t → t.cmdReady = true →
      exec (.commit start count) s = .next t) ∧
    (∀ t, hostIssues (commitCommands s start count) s = .next t → t.cmdReady = false →
      ∃ u, exec (.commit start count) s = .next u ∧ u.cmdReady = false ∧ { u with todo := t.todo } = t) ∧
    (∀ f, hostIssues (commitCommands s start count) s = .fault f → exec (.commit start count) s = .fault f)

/-! ## Range commands -/

/-- R60: REFRESH and COMMIT fault with `RangeError` exactly for an invalid range, whatever the state (R183: before every other
check). -/
def Obligations.RangeErrorExactlyForInvalidRanges : Prop :=
  ∀ (s : State) (start count : Byte),
    (exec (.refresh start count) s = .fault (.rangeError start count) ↔
      ¬ (1 ≤ count.toNat ∧ start.toNat + count.toNat ≤ 19)) ∧
    (exec (.commit start count) s = .fault (.rangeError start count) ↔
      ¬ (1 ≤ count.toNat ∧ start.toNat + count.toNat ≤ 19))

/-- R140 with a clock chip that acknowledges: REFRESH copies exactly the range from the chip into the image, in one
transaction, and leaves the engine idle. That the awaited Engine steps are taken is the fairness
of entry 9. -/
def Obligations.RefreshCopiesTheRange : Prop :=
  ∀ (s : State) (start count : Byte), validRange start count = true → s.readyToStart = true → s.served = true →
    s.acksNext 3 = true →
    ∃ t, exec (.refresh start count) s = .next t ∧
      (∀ a, t.img.read a = if inRange start count a then s.chip.read a else s.img.read a) ∧
      t = { s with
        img := t.img, data := s.chip.read (start.toNat + count.toNat - 1), acken := false, done := false,
        status := 0xF8, bus := .idle, sel := s.params.addrClock, chipPtrNext := false,
        ptr := nextPtr (start + count - 1), replies := s.replies.drop 3,
        history := (refreshTrace s start count).reverse ++ s.history, todo := [], rsp := some 0 }

/-- R141 with a clock chip that acknowledges: COMMIT writes exactly the range of the image to the chip, in one transaction, and
leaves the image alone and the engine idle. That the awaited Engine steps are taken is the fairness
of entry 9. -/
def Obligations.CommitWritesTheRange : Prop :=
  ∀ (s : State) (start count : Byte), validRange start count = true → s.readyToStart = true → s.served = true →
    s.acksNext (2 + count.toNat) = true →
    ∃ t, exec (.commit start count) s = .next t ∧
      (∀ a, t.chip.read a = if inRange start count a then s.img.read a else s.chip.read a) ∧
      t = { s with
        chip := t.chip, data := s.img.read (start.toNat + count.toNat - 1), acken := false, done := false,
        status := 0xF8, bus := .idle, sel := s.params.addrClock, chipPtrNext := false,
        ptr := nextPtr (start + count - 1), replies := s.replies.drop (2 + count.toNat),
        history := (commitTrace s start count).reverse ++ s.history, todo := [], rsp := some 0 }

/-- What R144 derives: a REFRESH and then a COMMIT of the same range both complete, and every stored byte of the chip is as it
was. That the awaited Engine steps are taken is the fairness of entry 9. -/
def Obligations.RefreshThenCommitIsNoOpOnTheChip : Prop :=
  ∀ (s : State) (start count : Byte), validRange start count = true → s.readyToStart = true → s.served = true →
    s.acksNext (5 + count.toNat) = true →
    ∃ t u, exec (.refresh start count) s = .next t ∧ t.cmdReady = true ∧
      exec (.commit start count) t = .next u ∧ u.cmdReady = true ∧
      ∀ a, u.chip.read a = s.chip.read a

/-- R177: REFRESH 0x0F, 1; SETF A2F, 0; COMMIT 0x0F, 1 clears bit 1 of the chip's control/status register and changes no other
bit of the chip, where A2F is bit 1 of 0x0F in the field table (R88, R168). The fairness is entry 9. -/
def Obligations.ClearingTheAlarmFlagClearsOneBit : Prop :=
  ∀ s : State, s.readyToStart = true → s.served = true → s.acksNext 6 = true →
    fieldDesc s.params.ft .a2F = ⟨0x0F, 1, 1⟩ →
    ∃ t, hostIssues clearAlarm2Flag s = .next t ∧ t.cmdReady = true ∧
      ∀ a, t.chip.read a = if a = 0x0F then s.chip.read a &&& 0xFD else s.chip.read a

/-- R145: with nobody answering the clock chip's address REFRESH and COMMIT hang, at the pointer byte when `NACK_COMPLETES`,
at the address phase when not; image and chip are untouched. That the awaited Engine steps are taken is the fairness
of entry 9. -/
def Obligations.RangeCommandsHangWithoutTheChip : Prop :=
  ∀ (s : State) (start count : Byte) (r : Reply) (rs : List Reply) (i : Instr), validRange start count = true →
    s.readyToStart = true → s.served = true → s.replies = r :: rs → r.ack = false →
    (i = .refresh start count ∨ i = .commit start count) →
    ∃ t, exec i s = .next t ∧ t.wedged = true ∧ t.done = false ∧ t.img = s.img ∧ t.chip = s.chip ∧ Hangs t ∧
      (s.params.nackCompletes = true →
        t.pend = some .tx ∧ t.bus = .nacked ∧ t.status = 0x20 ∧ t.data = start) ∧
      (s.params.nackCompletes = false → t.pend = some .addr ∧ t.bus = .started)

/-- R145 (b): a NACK to the pointer byte of a REFRESH goes unnoticed: the burst reads from wherever the chip's pointer was. That the awaited Engine steps are taken is the fairness
of entry 9. -/
def Obligations.RefreshAfterNackedPointerReadsFromTheOldPointer : Prop :=
  ∀ (s : State) (start count : Byte) (r1 r2 r3 : Reply) (rs : List Reply), validRange start count = true →
    s.readyToStart = true → s.served = true → s.params.nackCompletes = true → s.ptr.toNat ≤ 0x12 →
    s.replies = r1 :: r2 :: r3 :: rs → r1.ack = true → r2.ack = false → r3.ack = true →
    ∃ t, exec (.refresh start count) s = .next t ∧ t.cmdReady = true ∧ t.bus = .idle ∧
      ∀ k, k < count.toNat → t.img.read (start.toNat + k) = s.chip.read (nextPtr^[k] s.ptr).toNat

/-- R145 (a): a NACK to the last byte a COMMIT sends goes unnoticed: the command completes and the chip has not taken that
byte. That the awaited Engine steps are taken is the fairness
of entry 9. -/
def Obligations.CommitWithLastByteNackedCompletes : Prop :=
  ∀ (s : State) (start count : Byte) (acks : List Reply) (r : Reply) (rs : List Reply), validRange start count = true →
    s.readyToStart = true → s.served = true → s.params.nackCompletes = true →
    s.replies = acks ++ r :: rs → acks.length = 1 + count.toNat → acks.all Reply.ack = true → r.ack = false →
    ∃ t, exec (.commit start count) s = .next t ∧ t.cmdReady = true ∧ t.bus = .idle ∧
      ∀ a, t.chip.read a =
        if inRange start count a && decide (a + 1 < start.toNat + count.toNat) then s.img.read a else s.chip.read a

/-! ## Field commands -/

/-- R150: GETF of every field, in every state, for every field table (R152): the field's bits of its image byte, zero-extended;
nothing else changes; and its word. With it the ids and the rows that R88 prints: `fieldTable` has exactly these. -/
def Obligations.GetfReturnsTheFieldBits : Prop :=
  (∀ (f : Field) (s : State),
    let d := fieldDesc s.params.ft f
    encode (getfOf f) = 0x400000 ||| (fieldId f).setWidth 24 <<< 8 ∧
    exec (getfOf f) s =
      .next { s with todo := [], rsp := some (((s.img.read d.off.val).extractLsb' d.lsb d.width).setWidth 8) }) ∧
  (∀ r ∈ fieldTableRows, fieldId r.field = r.id ∧ fieldDesc fieldTable r.field = ⟨r.off, r.lsb, r.width⟩) ∧
  (∀ f : Field, ∃ r ∈ fieldTableRows, r.field = f)

/-- R151: SETF of every field, in every state, for every field table (R152): a value that fits replaces the field's bits of its
image byte and nothing else; a value that does not fit is `FieldValueError`; and its word. -/
def Obligations.SetfReplacesTheFieldBits : Prop :=
  ∀ (f : Field) (v : Byte) (s : State),
    let d := fieldDesc s.params.ft f
    encode (setfOf v f) = 0x410000 ||| (fieldId f).setWidth 24 <<< 8 ||| v.setWidth 24 ∧
    (v.toNat < 2 ^ d.width →
      ∃ t, exec (setfOf v f) s = .next t ∧
        t = { s with img := t.img, todo := [], rsp := some 0 } ∧
        (∀ a, a ≠ d.off.val → t.img.read a = s.img.read a) ∧
        (∀ k, k < 8 → (t.img.read d.off.val).getLsbD k =
          if d.lsb ≤ k ∧ k < d.lsb + d.width then v.getLsbD (k - d.lsb) else (s.img.read d.off.val).getLsbD k)) ∧
    (2 ^ d.width ≤ v.toNat → exec (setfOf v f) s = .fault (.fieldValueError f v))

/-- R152: in a table of a build that exists no field crosses a byte, and the laws of the accessors: GETF after SETF returns the
value; SETF of what GETF returned leaves the image as it was; SETF of one field does not change what GETF returns for a field
that shares no bit with it. -/
def Obligations.FieldAccessorsObeyTheirLaws : Prop :=
  (∀ (p : Params) (f : Field), paramsOk p = true →
    1 ≤ (fieldDesc p.ft f).width ∧ (fieldDesc p.ft f).lsb + (fieldDesc p.ft f).width ≤ 8) ∧
  (∀ (f : Field) (v : Byte) (s : State), fieldTableOk s.params.ft = true → v.toNat < 2 ^ (fieldDesc s.params.ft f).width →
    ∃ t u, exec (setfOf v f) s = .next t ∧ exec (getfOf f) t = .next u ∧ u.rsp = some v) ∧
  (∀ (f : Field) (s : State), ∃ t v u, exec (getfOf f) s = .next t ∧ t.rsp = some v ∧ exec (setfOf v f) t = .next u ∧
    ∀ a, u.img.read a = s.img.read a) ∧
  (∀ (f g : Field) (v : Byte) (s : State),
    let d := fieldDesc s.params.ft f
    let e := fieldDesc s.params.ft g
    v.toNat < 2 ^ d.width → (d.off ≠ e.off ∨ d.lsb + d.width ≤ e.lsb ∨ e.lsb + e.width ≤ d.lsb) →
    ∃ t u w, exec (setfOf v f) s = .next t ∧ exec (getfOf g) t = .next u ∧ exec (getfOf g) s = .next w ∧ u.rsp = w.rsp)

/-- R94, R172: SETBCD of the two digit fields of a register, where the tens digit fits, makes the register read back the
number; shown for the registers whose fields are a full ones nibble and a tens digit above it, in any field table. -/
def Obligations.SetbcdReadsBack : Prop :=
  ∀ (tens ones : Field) (n : Nat) (s : State),
    let d := fieldDesc s.params.ft tens
    let e := fieldDesc s.params.ft ones
    n ≤ 99 → d.off = e.off → e.lsb = 0 → e.width = 4 → d.lsb = 4 → n / 10 < 2 ^ d.width →
    ∃ t, hostIssues (setBcd tens ones n) s = .next t ∧ t.cmdReady = true ∧ twoDigits s.params.ft tens ones t.img = n

/-! ## Whole-machine rules -/

/-- R34: a command that is neither a SETF nor a REFRESH leaves the image as it was. -/
def Obligations.OnlySetfAndRefreshWriteTheImage : Prop :=
  ∀ (i : Instr) (s t : State), (∀ start count, i ≠ .refresh start count) → (∀ f v, i ≠ setfOf v f) →
    exec i s = .next t → t.img = s.img

/-- R67, R101, R150, R151: INIT, ENABLE, DISABLE, STATUS, GETF and SETF touch neither the chip nor the bus, and the codec's
accessors no element of the engine. -/
def Obligations.CodecAndControlStayOffTheBus : Prop :=
  ∀ (i : Instr) (s t : State),
    (i = .init ∨ i = .enable ∨ i = .disable ∨ i = .status ∨ (∃ f, i = getfOf f) ∨ (∃ f v, i = setfOf v f)) →
    exec i s = .next t →
    t.chip = s.chip ∧ t.ptr = s.ptr ∧ t.history = s.history ∧ t.replies = s.replies ∧ t.data = s.data ∧
    t.acken = s.acken ∧ t.done = s.done ∧ t.stopreq = s.stopreq ∧ t.status = s.status ∧ t.pend = s.pend ∧
    t.bus = s.bus ∧ t.sel = s.sel ∧ t.wedged = s.wedged

/-- R183 for the composites: with a valid range the engine checks come from the first step, `Disabled` before
`BusyViolation` before `PhaseOrder`; the fault recorded is that step's (R133; the record is entry 12, DEDUCED). -/
def Obligations.CompositesFaultAtTheirFirstStep : Prop :=
  ∀ (s : State) (i first : Instr),
    (((∃ addr read, i = .beginXfer addr read) ∨
        (∃ start count, validRange start count = true ∧ (i = .refresh start count ∨ i = .commit start count))) ∧
        first = .start ∨
      i = .endXfer ∧ first = .stop) →
    (s.en = false → exec i s = .fault (.disabled first)) ∧
    (s.en = true → (s.pend ≠ none ∨ s.stopreq = true) → exec i s = .fault (.busyViolation first s.pend)) ∧
    (s.en = true → s.pend = none → s.stopreq = false →
      (s.bus = .started ∨ (first = .stop ∧ s.bus = .idle)) → exec i s = .fault (.phaseOrder first s.bus))

/-- The invariant holds at reset. -/
def Obligations.ResetMeetsTheInvariant : Prop := StateInv State.reset

/-- Every step keeps the invariant: the byte spaces stay canonical (entry 19), `STATUS` stays one of the eleven codes (R27),
`STOPREQ` marks exactly a pending STOP (R24), `DONE` is 0 while a phase is pending or the bus wedged (R23, R127), a disabled
engine is idle (R102), and a pending phase is one that R128 admits; and no step writes the parameters of R5. -/
def Obligations.EveryStepKeepsTheInvariant : Prop :=
  ∀ s t : State, StateInv s → step s = .next t → StateInv t ∧ t.params = s.params
end

