-- ==== Sys2Proof/Laws/Decode.lean ====
section
/-! SUPPORT. The bytes of a command word, the address byte, the field ids, and what the operand decoders answer: the lemmas
with which a word is decoded without evaluating it. -/

namespace Sys2Proof

@[simp] theorem opByte_packWord (op a b : Byte) : opByte (packWord op a b) = op := by
  unfold opByte packWord
  apply BitVec.eq_of_getLsbD_eq
  intro i hi
  rw [BitVec.getLsbD_extractLsb', BitVec.getLsbD_append, BitVec.getLsbD_append]
  simp [hi, show ¬ 16 + i < 8 by omega, show ¬ 16 + i - 8 < 8 by omega, show 16 + i - 8 - 8 = i by omega]

@[simp] theorem aByte_packWord (op a b : Byte) : aByte (packWord op a b) = a := by
  unfold aByte packWord
  apply BitVec.eq_of_getLsbD_eq
  intro i hi
  rw [BitVec.getLsbD_extractLsb', BitVec.getLsbD_append, BitVec.getLsbD_append]
  simp [hi, show ¬ 8 + i < 8 by omega, show 8 + i - 8 = i by omega]

@[simp] theorem bByte_packWord (op a b : Byte) : bByte (packWord op a b) = b := by
  unfold bByte packWord
  apply BitVec.eq_of_getLsbD_eq
  intro i hi
  rw [BitVec.getLsbD_extractLsb', BitVec.getLsbD_append]
  simp [hi]

/-- A word is its three bytes. -/
theorem packWord_bytes (w : CmdWord) : packWord (opByte w) (aByte w) (bByte w) = w := by
  unfold opByte aByte bByte packWord
  apply BitVec.eq_of_getLsbD_eq
  intro i hi
  simp only [BitVec.getLsbD_append, BitVec.getLsbD_extractLsb']
  by_cases h1 : i < 8
  · simp [h1]
  · by_cases h2 : i - 8 < 8
    · simp [h1, h2, show 8 + (i - 8) = i by omega]
    · simp [h1, h2, show i - 8 - 8 < 8 by omega, show 16 + (i - 8 - 8) = i by omega]

/-- A word as the `|` of its shifted bytes. -/
theorem packWord_or (op a b : Byte) :
    packWord op a b = op.setWidth 24 <<< 16 ||| a.setWidth 24 <<< 8 ||| b.setWidth 24 := by
  unfold packWord
  apply BitVec.eq_of_getLsbD_eq
  intro i hi
  have hi' : i < 24 := hi
  simp only [BitVec.getLsbD_append, BitVec.getLsbD_or, BitVec.getLsbD_shiftLeft, BitVec.getLsbD_setWidth, hi',
    decide_true, Bool.true_and]
  by_cases h1 : i < 8
  · simp [h1, show i < 16 by omega]
  · by_cases h2 : i - 8 < 8
    · simp [h1, h2, show i < 16 by omega, show i - 8 < 24 by omega, BitVec.getLsbD_of_ge b i (by omega)]
    · simp [h1, h2, show ¬ i < 16 by omega, show i - 8 < 24 by omega, show i - 16 < 24 by omega,
        BitVec.getLsbD_of_ge b i (by omega), BitVec.getLsbD_of_ge a (i - 8) (by omega),
        show i - 8 - 8 = i - 16 by omega]

@[simp] theorem Machine.addressOf_addressByte (addr : BusAddr) (read : Bool) :
    Machine.addressOf (Machine.addressByte addr read) = addr := by
  revert addr read; decide

@[simp] theorem Machine.directionOf_addressByte (addr : BusAddr) (read : Bool) :
    Machine.directionOf (Machine.addressByte addr read) = read := by
  revert addr read; decide

/-- Every byte is the address byte of its own address and direction (R83). -/
@[simp] theorem Machine.addressByte_parts (b : Byte) :
    Machine.addressByte (Machine.addressOf b) (Machine.directionOf b) = b := by
  revert b; decide

@[simp] theorem fieldOfId_fieldId (f : Field) : fieldOfId (fieldId f) = some f := by cases f <;> rfl

theorem decodeN_pack (op : Byte) (i : Instr) : decodeN (packWord op 0 0) i = .ok i := by
  simp [decodeN]

theorem decodeB_pack (op d : Byte) (mk : Byte → Instr) : decodeB (packWord op 0 d) mk = .ok (mk d) := by
  simp [decodeB]

theorem decodeF_pack (op : Byte) (f : Field) : decodeF (packWord op (fieldId f) 0) = .ok (getfOf f) := by
  simp [decodeF]

theorem decodeS_pack (op v : Byte) (f : Field) : decodeS (packWord op (fieldId f) v) = .ok (setfOf v f) := by
  simp [decodeS]

end Sys2Proof
end

