-- ==== Sys2Proof/Laws/Memory.lean ====
section
/-! SUPPORT. The laws of the byte spaces: a read after a write, the canonical form kept by every operation, and equality of
canonical memories by their bytes. -/

namespace Sys2Proof.Machine

@[simp] theorem Memory.read_nil (a : Nat) : Memory.read [] a = 0 := rfl

theorem Memory.read_erase (m : Memory) (a b : Nat) :
    (m.erase a).read b = if b = a then 0 else m.read b := by
  induction m with
  | nil => simp [Memory.erase]
  | cons c m ih =>
    unfold Memory.erase at ih ⊢
    by_cases hc : c.1 = a
    · have : (c.1 != a) = false := by simp [hc]
      rw [List.filter_cons, this, if_neg (by simp), ih]
      by_cases hb : b = a
      · simp [hb]
      · rw [if_neg hb, if_neg hb, Memory.read, if_neg (by omega)]
    · have : (c.1 != a) = true := by simp [hc]
      rw [List.filter_cons, this, if_pos rfl, Memory.read, ih, Memory.read]
      by_cases hb : b = a
      · rw [if_pos hb, if_neg (by omega), if_pos hb]
      · rw [if_neg hb, if_neg hb]

theorem Memory.read_insert (m : Memory) (a b : Nat) (v : Byte) (h : ∀ c ∈ m, c.1 ≠ a) :
    (m.insert a v).read b = if b = a then v else m.read b := by
  induction m with
  | nil =>
    by_cases hb : b = a
    · simp [Memory.insert, Memory.read, hb]
    · simp [Memory.insert, Memory.read, hb, Ne.symm hb]
  | cons c m ih =>
    have hc : c.1 ≠ a := h c (by simp)
    have ih' := ih (fun d hd => h d (by simp [hd]))
    unfold Memory.insert
    by_cases hl : a < c.1
    · rw [if_pos hl, Memory.read]
      by_cases hb : b = a
      · rw [if_pos (by simpa using hb.symm), if_pos hb]
      · rw [if_neg (by simpa using Ne.symm hb), if_neg hb]
    · rw [if_neg hl, Memory.read, ih', Memory.read]
      by_cases hb : b = a
      · rw [if_neg (by omega), if_pos hb, if_pos hb]
      · rw [if_neg hb, if_neg hb]

/-- A read after a write: the value at the written address, every other byte as before. -/
theorem Memory.read_write (m : Memory) (a b : Nat) (v : Byte) :
    (m.write a v).read b = if b = a then v else m.read b := by
  have hne : ∀ c ∈ m.erase a, c.1 ≠ a := by
    intro c hc
    have := (List.mem_filter.mp hc).2
    simpa using this
  unfold Memory.write
  by_cases hv : v = Memory.unlisted
  · rw [if_pos hv, Memory.read_erase, hv]; rfl
  · rw [if_neg hv, Memory.read_insert _ _ _ _ hne, Memory.read_erase]
    by_cases hb : b = a
    · simp [hb]
    · simp [hb]

@[simp] theorem Memory.read_write_same (m : Memory) (a : Nat) (v : Byte) : (m.write a v).read a = v := by
  rw [Memory.read_write, if_pos rfl]

theorem Memory.read_write_other (m : Memory) {a b : Nat} (v : Byte) (h : b ≠ a) :
    (m.write a v).read b = m.read b := by
  rw [Memory.read_write, if_neg h]

theorem Memory.wfFrom_mono {lo lo' : Nat} (h : lo' ≤ lo) : ∀ {m : Memory}, m.wfFrom lo = true → m.wfFrom lo' = true
  | [], _ => rfl
  | c :: m, hm => by
    simp only [Memory.wfFrom, Bool.and_eq_true, decide_eq_true_eq] at hm ⊢
    exact ⟨⟨⟨by omega, hm.1.1.2⟩, hm.1.2⟩, hm.2⟩

theorem Memory.erase_wfFrom (a : Nat) : ∀ {lo : Nat} {m : Memory}, m.wfFrom lo = true → (m.erase a).wfFrom lo = true
  | _, [], _ => rfl
  | lo, c :: m, hm => by
    simp only [Memory.wfFrom, Bool.and_eq_true, decide_eq_true_eq] at hm
    have ih := Memory.erase_wfFrom a hm.2
    unfold Memory.erase at ih ⊢
    by_cases hc : (c.1 != a) = true
    · rw [List.filter_cons, if_pos hc]
      simp only [Memory.wfFrom, Bool.and_eq_true, decide_eq_true_eq]
      exact ⟨hm.1, ih⟩
    · rw [List.filter_cons, if_neg hc]
      exact Memory.wfFrom_mono (by omega) ih

theorem Memory.insert_wfFrom {a : Nat} {v : Byte} (ha : a < 19) (hv : v ≠ 0) :
    ∀ {lo : Nat} {m : Memory}, lo ≤ a → (∀ c ∈ m, c.1 ≠ a) → m.wfFrom lo = true → (m.insert a v).wfFrom lo = true
  | lo, [], hlo, _, _ => by
    simpa [Memory.insert, Memory.wfFrom, Memory.unlisted, hlo, ha] using hv
  | lo, c :: m, hlo, hne, hm => by
    have hm' := hm
    simp only [Memory.wfFrom, Bool.and_eq_true, decide_eq_true_eq] at hm'
    have hc : c.1 ≠ a := hne c (by simp)
    unfold Memory.insert
    by_cases hl : a < c.1
    · rw [if_pos hl]
      simp only [Memory.wfFrom, Bool.and_eq_true, decide_eq_true_eq]
      exact ⟨⟨⟨hlo, ha⟩, by simpa [Memory.unlisted] using hv⟩, ⟨⟨by omega, hm'.1.1.2⟩, hm'.1.2⟩, hm'.2⟩
    · rw [if_neg hl]
      simp only [Memory.wfFrom, Bool.and_eq_true, decide_eq_true_eq]
      exact ⟨hm'.1, Memory.insert_wfFrom ha hv (by omega) (fun d hd => hne d (by simp [hd])) hm'.2⟩

/-- A write inside 0 to 18 keeps the canonical form. -/
theorem Memory.write_wf {m : Memory} {a : Nat} (v : Byte) (ha : a < 19) (h : m.wf = true) : (m.write a v).wf = true := by
  unfold Memory.write Memory.wf at *
  by_cases hv : v = Memory.unlisted
  · rw [if_pos hv]; exact Memory.erase_wfFrom a h
  · rw [if_neg hv]
    refine Memory.insert_wfFrom ha hv (Nat.zero_le _) ?_ (Memory.erase_wfFrom a h)
    intro c hc
    simpa using (List.mem_filter.mp hc).2

theorem Memory.foldl_write_wf (f : Nat → Byte) :
    ∀ (l : List Nat) (m : Memory), (∀ a ∈ l, a < 19) → m.wf = true →
      (l.foldl (fun m a => m.write a (f a)) m).wf = true
  | [], _, _, h => h
  | a :: l, m, hl, h => by
    rw [List.foldl_cons]
    exact Memory.foldl_write_wf f l _ (fun b hb => hl b (by simp [hb])) (Memory.write_wf _ (hl a (by simp)) h)

/-- A memory built from 19 bytes is canonical. -/
theorem Memory.ofBytes_wf (f : Nat → Byte) : (Memory.ofBytes f).wf = true :=
  Memory.foldl_write_wf f _ _ (fun _ ha => List.mem_range.mp ha) rfl

theorem Memory.foldl_write_read (f : Nat → Byte) (b : Nat) :
    ∀ (l : List Nat) (m : Memory),
      (l.foldl (fun m a => m.write a (f a)) m).read b = if b ∈ l then f b else m.read b
  | [], m => by simp
  | a :: l, m => by
    rw [List.foldl_cons, Memory.foldl_write_read f b l, Memory.read_write]
    by_cases hb : b ∈ l
    · simp [hb]
    · by_cases hba : b = a
      · simp [hba]
      · simp [hb, hba]

/-- The bytes of a memory built from 19 bytes. -/
theorem Memory.ofBytes_read (f : Nat → Byte) (b : Nat) :
    (Memory.ofBytes f).read b = if b < 19 then f b else 0 := by
  unfold Memory.ofBytes
  rw [Memory.foldl_write_read]
  simp [List.mem_range]

theorem Memory.read_below {lo b : Nat} (hb : b < lo) : ∀ {m : Memory}, m.wfFrom lo = true → m.read b = 0
  | [], _ => rfl
  | c :: m, hm => by
    simp only [Memory.wfFrom, Bool.and_eq_true, decide_eq_true_eq] at hm
    rw [Memory.read, if_neg (by omega)]
    exact Memory.read_below (by omega) hm.2

/-- A canonical memory reads 0x00 outside 0 to 18. -/
theorem Memory.read_outside {lo b : Nat} (hb : 19 ≤ b) : ∀ {m : Memory}, m.wfFrom lo = true → m.read b = 0
  | [], _ => rfl
  | c :: m, hm => by
    simp only [Memory.wfFrom, Bool.and_eq_true, decide_eq_true_eq] at hm
    rw [Memory.read, if_neg (by omega)]
    exact Memory.read_outside hb hm.2

theorem Memory.ext_from {lo : Nat} : ∀ {m n : Memory}, m.wfFrom lo = true → n.wfFrom lo = true →
    (∀ a, m.read a = n.read a) → m = n
  | [], [], _, _, _ => rfl
  | [], d :: n, _, hn, h => by
    simp only [Memory.wfFrom, Bool.and_eq_true, decide_eq_true_eq] at hn
    have := h d.1
    simp only [Memory.read, if_true] at this
    simp [Memory.unlisted] at hn
    exact absurd this.symm hn.1.2
  | c :: m, [], hm, _, h => by
    simp only [Memory.wfFrom, Bool.and_eq_true, decide_eq_true_eq] at hm
    have := h c.1
    simp only [Memory.read, if_true] at this
    simp [Memory.unlisted] at hm
    exact absurd this hm.1.2
  | c :: m, d :: n, hm, hn, h => by
    simp only [Memory.wfFrom, Bool.and_eq_true, decide_eq_true_eq] at hm hn
    have hcd : c.1 = d.1 := by
      rcases Nat.lt_trichotomy c.1 d.1 with hlt | heq | hgt
      · have := h c.1
        rw [Memory.read, if_pos rfl, Memory.read, if_neg (by omega), Memory.read_below (by omega) hn.2] at this
        simp [Memory.unlisted, this] at hm
      · exact heq
      · have := h d.1
        rw [Memory.read, if_neg (by omega), Memory.read_below (by omega) hm.2, Memory.read, if_pos rfl] at this
        simp [Memory.unlisted, ← this] at hn
    have hv : c.2 = d.2 := by
      have := h c.1
      rwa [Memory.read, if_pos rfl, Memory.read, if_pos hcd.symm] at this
    have hc : c = d := Prod.ext hcd hv
    subst hc
    have : m = n := Memory.ext_from hm.2 hn.2 (fun a => by
      rcases Nat.lt_or_ge a (c.1 + 1) with hlt | hge
      · rw [Memory.read_below hlt hm.2, Memory.read_below hlt hn.2]
      · have := h a
        rwa [Memory.read, if_neg (by omega), Memory.read, if_neg (by omega)] at this)
    rw [this]

/-- Canonical memories with the same bytes are the same list. -/
theorem Memory.ext_of_wf {m n : Memory} (hm : m.wf = true) (hn : n.wf = true) (h : ∀ a, m.read a = n.read a) : m = n :=
  Memory.ext_from hm hn h

end Sys2Proof.Machine
end

