-- ==== Sys2Proof/Laws/State.lean ====
section
/-! SUPPORT. One lemma per field per named update of the state: what each update writes and that it writes nothing else. -/

namespace Sys2Proof.Machine

@[simp] theorem State.issue_data (s : State) (p : Phase) : (s.issue p).data = s.data := rfl
@[simp] theorem State.issue_acken (s : State) (p : Phase) : (s.issue p).acken = s.acken := rfl
@[simp] theorem State.issue_done (s : State) (p : Phase) : (s.issue p).done = false := rfl
@[simp] theorem State.issue_stopreq (s : State) (p : Phase) : (s.issue p).stopreq = s.stopreq := rfl
@[simp] theorem State.issue_en (s : State) (p : Phase) : (s.issue p).en = s.en := rfl
@[simp] theorem State.issue_div (s : State) (p : Phase) : (s.issue p).div = s.div := rfl
@[simp] theorem State.issue_status (s : State) (p : Phase) : (s.issue p).status = s.status := rfl
@[simp] theorem State.issue_pend (s : State) (p : Phase) : (s.issue p).pend = some p := rfl
@[simp] theorem State.issue_bus (s : State) (p : Phase) : (s.issue p).bus = s.bus := rfl
@[simp] theorem State.issue_sel (s : State) (p : Phase) : (s.issue p).sel = s.sel := rfl
@[simp] theorem State.issue_wedged (s : State) (p : Phase) : (s.issue p).wedged = s.wedged := rfl
@[simp] theorem State.issue_img (s : State) (p : Phase) : (s.issue p).img = s.img := rfl
@[simp] theorem State.issue_rsp (s : State) (p : Phase) : (s.issue p).rsp = s.rsp := rfl
@[simp] theorem State.issue_chip (s : State) (p : Phase) : (s.issue p).chip = s.chip := rfl
@[simp] theorem State.issue_ptr (s : State) (p : Phase) : (s.issue p).ptr = s.ptr := rfl
@[simp] theorem State.issue_chipPtrNext (s : State) (p : Phase) : (s.issue p).chipPtrNext = s.chipPtrNext := rfl
@[simp] theorem State.issue_history (s : State) (p : Phase) : (s.issue p).history = s.history := rfl
@[simp] theorem State.issue_replies (s : State) (p : Phase) : (s.issue p).replies = s.replies := rfl
@[simp] theorem State.issue_params (s : State) (p : Phase) : (s.issue p).params = s.params := rfl
@[simp] theorem State.issue_agenda (s : State) (p : Phase) : (s.issue p).agenda = s.agenda := rfl
@[simp] theorem State.issue_todo (s : State) (p : Phase) : (s.issue p).todo = s.todo := rfl
@[simp] theorem State.issue_fair (s : State) (p : Phase) : (s.issue p).fair = s.fair := rfl
@[simp] theorem State.issue_draws (s : State) (p : Phase) : (s.issue p).draws = s.draws := rfl

@[simp] theorem State.wedge_data (s : State) : s.wedge.data = s.data := rfl
@[simp] theorem State.wedge_acken (s : State) : s.wedge.acken = s.acken := rfl
@[simp] theorem State.wedge_done (s : State) : s.wedge.done = s.done := rfl
@[simp] theorem State.wedge_stopreq (s : State) : s.wedge.stopreq = s.stopreq := rfl
@[simp] theorem State.wedge_en (s : State) : s.wedge.en = s.en := rfl
@[simp] theorem State.wedge_div (s : State) : s.wedge.div = s.div := rfl
@[simp] theorem State.wedge_status (s : State) : s.wedge.status = s.status := rfl
@[simp] theorem State.wedge_pend (s : State) : s.wedge.pend = s.pend := rfl
@[simp] theorem State.wedge_bus (s : State) : s.wedge.bus = s.bus := rfl
@[simp] theorem State.wedge_sel (s : State) : s.wedge.sel = s.sel := rfl
@[simp] theorem State.wedge_wedged (s : State) : s.wedge.wedged = true := rfl
@[simp] theorem State.wedge_img (s : State) : s.wedge.img = s.img := rfl
@[simp] theorem State.wedge_rsp (s : State) : s.wedge.rsp = s.rsp := rfl
@[simp] theorem State.wedge_chip (s : State) : s.wedge.chip = s.chip := rfl
@[simp] theorem State.wedge_ptr (s : State) : s.wedge.ptr = s.ptr := rfl
@[simp] theorem State.wedge_chipPtrNext (s : State) : s.wedge.chipPtrNext = s.chipPtrNext := rfl
@[simp] theorem State.wedge_history (s : State) : s.wedge.history = s.history := rfl
@[simp] theorem State.wedge_replies (s : State) : s.wedge.replies = s.replies := rfl
@[simp] theorem State.wedge_params (s : State) : s.wedge.params = s.params := rfl
@[simp] theorem State.wedge_agenda (s : State) : s.wedge.agenda = s.agenda := rfl
@[simp] theorem State.wedge_todo (s : State) : s.wedge.todo = s.todo := rfl
@[simp] theorem State.wedge_fair (s : State) : s.wedge.fair = s.fair := rfl
@[simp] theorem State.wedge_draws (s : State) : s.wedge.draws = s.draws := rfl

@[simp] theorem State.finish_data (s : State) (v : Byte) : (s.finish v).data = s.data := rfl
@[simp] theorem State.finish_acken (s : State) (v : Byte) : (s.finish v).acken = s.acken := rfl
@[simp] theorem State.finish_done (s : State) (v : Byte) : (s.finish v).done = s.done := rfl
@[simp] theorem State.finish_stopreq (s : State) (v : Byte) : (s.finish v).stopreq = s.stopreq := rfl
@[simp] theorem State.finish_en (s : State) (v : Byte) : (s.finish v).en = s.en := rfl
@[simp] theorem State.finish_div (s : State) (v : Byte) : (s.finish v).div = s.div := rfl
@[simp] theorem State.finish_status (s : State) (v : Byte) : (s.finish v).status = s.status := rfl
@[simp] theorem State.finish_pend (s : State) (v : Byte) : (s.finish v).pend = s.pend := rfl
@[simp] theorem State.finish_bus (s : State) (v : Byte) : (s.finish v).bus = s.bus := rfl
@[simp] theorem State.finish_sel (s : State) (v : Byte) : (s.finish v).sel = s.sel := rfl
@[simp] theorem State.finish_wedged (s : State) (v : Byte) : (s.finish v).wedged = s.wedged := rfl
@[simp] theorem State.finish_img (s : State) (v : Byte) : (s.finish v).img = s.img := rfl
@[simp] theorem State.finish_rsp (s : State) (v : Byte) : (s.finish v).rsp = some v := rfl
@[simp] theorem State.finish_chip (s : State) (v : Byte) : (s.finish v).chip = s.chip := rfl
@[simp] theorem State.finish_ptr (s : State) (v : Byte) : (s.finish v).ptr = s.ptr := rfl
@[simp] theorem State.finish_chipPtrNext (s : State) (v : Byte) : (s.finish v).chipPtrNext = s.chipPtrNext := rfl
@[simp] theorem State.finish_history (s : State) (v : Byte) : (s.finish v).history = s.history := rfl
@[simp] theorem State.finish_replies (s : State) (v : Byte) : (s.finish v).replies = s.replies := rfl
@[simp] theorem State.finish_params (s : State) (v : Byte) : (s.finish v).params = s.params := rfl
@[simp] theorem State.finish_agenda (s : State) (v : Byte) : (s.finish v).agenda = s.agenda := rfl
@[simp] theorem State.finish_todo (s : State) (v : Byte) : (s.finish v).todo = [] := rfl
@[simp] theorem State.finish_fair (s : State) (v : Byte) : (s.finish v).fair = s.fair := rfl
@[simp] theorem State.finish_draws (s : State) (v : Byte) : (s.finish v).draws = s.draws := rfl

@[simp] theorem State.dropReply_data (s : State) : s.dropReply.data = s.data := rfl
@[simp] theorem State.dropReply_acken (s : State) : s.dropReply.acken = s.acken := rfl
@[simp] theorem State.dropReply_done (s : State) : s.dropReply.done = s.done := rfl
@[simp] theorem State.dropReply_stopreq (s : State) : s.dropReply.stopreq = s.stopreq := rfl
@[simp] theorem State.dropReply_en (s : State) : s.dropReply.en = s.en := rfl
@[simp] theorem State.dropReply_div (s : State) : s.dropReply.div = s.div := rfl
@[simp] theorem State.dropReply_status (s : State) : s.dropReply.status = s.status := rfl
@[simp] theorem State.dropReply_pend (s : State) : s.dropReply.pend = s.pend := rfl
@[simp] theorem State.dropReply_bus (s : State) : s.dropReply.bus = s.bus := rfl
@[simp] theorem State.dropReply_sel (s : State) : s.dropReply.sel = s.sel := rfl
@[simp] theorem State.dropReply_wedged (s : State) : s.dropReply.wedged = s.wedged := rfl
@[simp] theorem State.dropReply_img (s : State) : s.dropReply.img = s.img := rfl
@[simp] theorem State.dropReply_rsp (s : State) : s.dropReply.rsp = s.rsp := rfl
@[simp] theorem State.dropReply_chip (s : State) : s.dropReply.chip = s.chip := rfl
@[simp] theorem State.dropReply_ptr (s : State) : s.dropReply.ptr = s.ptr := rfl
@[simp] theorem State.dropReply_chipPtrNext (s : State) : s.dropReply.chipPtrNext = s.chipPtrNext := rfl
@[simp] theorem State.dropReply_history (s : State) : s.dropReply.history = s.history := rfl
@[simp] theorem State.dropReply_replies (s : State) : s.dropReply.replies = s.replies.tail := rfl
@[simp] theorem State.dropReply_params (s : State) : s.dropReply.params = s.params := rfl
@[simp] theorem State.dropReply_agenda (s : State) : s.dropReply.agenda = s.agenda := rfl
@[simp] theorem State.dropReply_todo (s : State) : s.dropReply.todo = s.todo := rfl
@[simp] theorem State.dropReply_fair (s : State) : s.dropReply.fair = s.fair := rfl
@[simp] theorem State.dropReply_draws (s : State) : s.dropReply.draws = s.draws := rfl

@[simp] theorem State.saw_data (s : State) (e : BusEvent) : (s.saw e).data = s.data := rfl
@[simp] theorem State.saw_acken (s : State) (e : BusEvent) : (s.saw e).acken = s.acken := rfl
@[simp] theorem State.saw_done (s : State) (e : BusEvent) : (s.saw e).done = s.done := rfl
@[simp] theorem State.saw_stopreq (s : State) (e : BusEvent) : (s.saw e).stopreq = s.stopreq := rfl
@[simp] theorem State.saw_en (s : State) (e : BusEvent) : (s.saw e).en = s.en := rfl
@[simp] theorem State.saw_div (s : State) (e : BusEvent) : (s.saw e).div = s.div := rfl
@[simp] theorem State.saw_status (s : State) (e : BusEvent) : (s.saw e).status = s.status := rfl
@[simp] theorem State.saw_pend (s : State) (e : BusEvent) : (s.saw e).pend = s.pend := rfl
@[simp] theorem State.saw_bus (s : State) (e : BusEvent) : (s.saw e).bus = s.bus := rfl
@[simp] theorem State.saw_sel (s : State) (e : BusEvent) : (s.saw e).sel = s.sel := rfl
@[simp] theorem State.saw_wedged (s : State) (e : BusEvent) : (s.saw e).wedged = s.wedged := rfl
@[simp] theorem State.saw_img (s : State) (e : BusEvent) : (s.saw e).img = s.img := rfl
@[simp] theorem State.saw_rsp (s : State) (e : BusEvent) : (s.saw e).rsp = s.rsp := rfl
@[simp] theorem State.saw_chip (s : State) (e : BusEvent) : (s.saw e).chip = s.chip := rfl
@[simp] theorem State.saw_ptr (s : State) (e : BusEvent) : (s.saw e).ptr = s.ptr := rfl
@[simp] theorem State.saw_chipPtrNext (s : State) (e : BusEvent) : (s.saw e).chipPtrNext = s.chipPtrNext := rfl
@[simp] theorem State.saw_history (s : State) (e : BusEvent) : (s.saw e).history = e :: s.history := rfl
@[simp] theorem State.saw_replies (s : State) (e : BusEvent) : (s.saw e).replies = s.replies := rfl
@[simp] theorem State.saw_params (s : State) (e : BusEvent) : (s.saw e).params = s.params := rfl
@[simp] theorem State.saw_agenda (s : State) (e : BusEvent) : (s.saw e).agenda = s.agenda := rfl
@[simp] theorem State.saw_todo (s : State) (e : BusEvent) : (s.saw e).todo = s.todo := rfl
@[simp] theorem State.saw_fair (s : State) (e : BusEvent) : (s.saw e).fair = s.fair := rfl
@[simp] theorem State.saw_draws (s : State) (e : BusEvent) : (s.saw e).draws = s.draws := rfl

@[simp] theorem State.completeWith_data (s : State) (c : StatusName) (b : BusState) : (s.completeWith c b).data = s.data := rfl
@[simp] theorem State.completeWith_acken (s : State) (c : StatusName) (b : BusState) : (s.completeWith c b).acken = s.acken := rfl
@[simp] theorem State.completeWith_done (s : State) (c : StatusName) (b : BusState) : (s.completeWith c b).done = true := rfl
@[simp] theorem State.completeWith_stopreq (s : State) (c : StatusName) (b : BusState) : (s.completeWith c b).stopreq = s.stopreq := rfl
@[simp] theorem State.completeWith_en (s : State) (c : StatusName) (b : BusState) : (s.completeWith c b).en = s.en := rfl
@[simp] theorem State.completeWith_div (s : State) (c : StatusName) (b : BusState) : (s.completeWith c b).div = s.div := rfl
@[simp] theorem State.completeWith_status (s : State) (c : StatusName) (b : BusState) : (s.completeWith c b).status = statusCode c := rfl
@[simp] theorem State.completeWith_pend (s : State) (c : StatusName) (b : BusState) : (s.completeWith c b).pend = none := rfl
@[simp] theorem State.completeWith_bus (s : State) (c : StatusName) (b : BusState) : (s.completeWith c b).bus = b := rfl
@[simp] theorem State.completeWith_sel (s : State) (c : StatusName) (b : BusState) : (s.completeWith c b).sel = s.sel := rfl
@[simp] theorem State.completeWith_wedged (s : State) (c : StatusName) (b : BusState) : (s.completeWith c b).wedged = s.wedged := rfl
@[simp] theorem State.completeWith_img (s : State) (c : StatusName) (b : BusState) : (s.completeWith c b).img = s.img := rfl
@[simp] theorem State.completeWith_rsp (s : State) (c : StatusName) (b : BusState) : (s.completeWith c b).rsp = s.rsp := rfl
@[simp] theorem State.completeWith_chip (s : State) (c : StatusName) (b : BusState) : (s.completeWith c b).chip = s.chip := rfl
@[simp] theorem State.completeWith_ptr (s : State) (c : StatusName) (b : BusState) : (s.completeWith c b).ptr = s.ptr := rfl
@[simp] theorem State.completeWith_chipPtrNext (s : State) (c : StatusName) (b : BusState) : (s.completeWith c b).chipPtrNext = s.chipPtrNext := rfl
@[simp] theorem State.completeWith_history (s : State) (c : StatusName) (b : BusState) : (s.completeWith c b).history = s.history := rfl
@[simp] theorem State.completeWith_replies (s : State) (c : StatusName) (b : BusState) : (s.completeWith c b).replies = s.replies := rfl
@[simp] theorem State.completeWith_params (s : State) (c : StatusName) (b : BusState) : (s.completeWith c b).params = s.params := rfl
@[simp] theorem State.completeWith_agenda (s : State) (c : StatusName) (b : BusState) : (s.completeWith c b).agenda = s.agenda := rfl
@[simp] theorem State.completeWith_todo (s : State) (c : StatusName) (b : BusState) : (s.completeWith c b).todo = s.todo := rfl
@[simp] theorem State.completeWith_fair (s : State) (c : StatusName) (b : BusState) : (s.completeWith c b).fair = s.fair := rfl
@[simp] theorem State.completeWith_draws (s : State) (c : StatusName) (b : BusState) : (s.completeWith c b).draws = s.draws := rfl

end Sys2Proof.Machine
end

