-- ==== Sys2Proof/Laws/Ops.lean ====
section
/-! SUPPORT. What each shared operation can do, once: the environment's moves, the Engine's step, the launch of a phase, the
awaits, the running of an expansion, and a whole command. Proofs cite these and do not unfold the operations. -/

namespace Sys2Proof.Machine

/-! ## The environment touches no element of the block -/

/-- Everything but the environment (`chip`, `ptr`, `chipPtrNext`, `history`, `replies`) is the same. -/
structure SameBlock (s t : State) : Prop where
  data : t.data = s.data
  acken : t.acken = s.acken
  done : t.done = s.done
  stopreq : t.stopreq = s.stopreq
  en : t.en = s.en
  div : t.div = s.div
  status : t.status = s.status
  pend : t.pend = s.pend
  bus : t.bus = s.bus
  sel : t.sel = s.sel
  wedged : t.wedged = s.wedged
  img : t.img = s.img
  rsp : t.rsp = s.rsp
  params : t.params = s.params
  agenda : t.agenda = s.agenda
  todo : t.todo = s.todo
  fair : t.fair = s.fair
  draws : t.draws = s.draws

theorem SameBlock.refl (s : State) : SameBlock s s :=
  ⟨rfl, rfl, rfl, rfl, rfl, rfl, rfl, rfl, rfl, rfl, rfl, rfl, rfl, rfl, rfl, rfl, rfl, rfl⟩

theorem addrAsked_block (s : State) (a : BusAddr) (read ack : Bool) : SameBlock s (addrAsked s a read ack) :=
  ⟨rfl, rfl, rfl, rfl, rfl, rfl, rfl, rfl, rfl, rfl, rfl, rfl, rfl, rfl, rfl, rfl, rfl, rfl⟩

theorem chipTakes_block (s : State) (d : Byte) : SameBlock s (chipTakes s d) := by
  unfold chipTakes
  split
  · constructor <;> rfl
  · split <;> constructor <;> rfl

theorem writeAsked_block (s : State) (d : Byte) (ack : Bool) : SameBlock s (writeAsked s d ack) := by
  have h : SameBlock s (if ack && s.clockSelected then chipTakes s d else s) := by
    split
    · exact chipTakes_block s d
    · exact SameBlock.refl s
  exact ⟨h.1, h.2, h.3, h.4, h.5, h.6, h.7, h.8, h.9, h.10, h.11, h.12, h.13, h.14, h.15, h.16, h.17, h.18⟩

theorem readAsked_block (s : State) (ack : Bool) : SameBlock s (readAsked s ack) := by
  unfold readAsked
  by_cases hc : s.clockSelected = true
  · by_cases hm : mappedPtr s.ptr = true <;> simp only [hc, hm, if_true, if_false, Bool.false_eq_true] <;>
      constructor <;> rfl
  · simp only [hc, if_false, Bool.false_eq_true]
    constructor <;> rfl

theorem chipTimeMove_block (a : ImgIdx) (v : Byte) (s : State) : SameBlock s (chipTimeMove a v s) := by
  constructor <;> rfl

/-- What the chip does with an acknowledged byte (R55, R57, U13). -/
theorem chipTakes_chip_wf (s : State) (d : Byte) (h : s.chip.wf = true) : (chipTakes s d).chip.wf = true := by
  unfold chipTakes
  split
  · exact h
  · split
    · rename_i hm
      refine Memory.write_wf _ ?_ h
      simp only [mappedPtr, decide_eq_true_eq] at hm
      omega
    · exact Memory.ofBytes_wf _

theorem writeAsked_chip_wf (s : State) (d : Byte) (ack : Bool) (h : s.chip.wf = true) :
    (writeAsked s d ack).chip.wf = true := by
  unfold writeAsked
  split
  · exact chipTakes_chip_wf s d h
  · exact h

theorem addrAsked_chip (s : State) (a : BusAddr) (read ack : Bool) : (addrAsked s a read ack).chip = s.chip := rfl

theorem readAsked_chip (s : State) (ack : Bool) : (readAsked s ack).chip = s.chip := by
  unfold readAsked
  by_cases hc : s.clockSelected = true
  · by_cases hm : mappedPtr s.ptr = true <;> simp only [hc, hm, if_true, if_false, Bool.false_eq_true] <;> rfl
  · simp only [hc, if_false, Bool.false_eq_true]; rfl

/-! ## The Engine -/

theorem engineStep_of_not_ready {s : State} (h : engineReady s = false) : engineStep s = s := by
  simp [engineStep, h]

theorem engineStep_of_pend {s : State} {p : Phase} (he : s.en = true) (hw : s.wedged = false) (hp : s.pend = some p) :
    engineStep s = completePhase p s := by
  simp [engineStep, engineReady, he, hw, hp]

theorem engineReady_iff (s : State) :
    engineReady s = true ↔ s.en = true ∧ (∃ p, s.pend = some p) ∧ s.wedged = false := by
  simp [engineReady, Option.isSome_iff_exists, and_assoc]

/-- The Engine's step: nothing, or the completion of the pending phase. -/
theorem engineStep_cases (s : State) :
    (engineReady s = false ∧ engineStep s = s) ∨
    ∃ p, s.en = true ∧ s.wedged = false ∧ s.pend = some p ∧ engineStep s = completePhase p s := by
  by_cases h : engineReady s = true
  · obtain ⟨he, ⟨p, hp⟩, hw⟩ := (engineReady_iff s).mp h
    exact .inr ⟨p, he, hw, hp, engineStep_of_pend he hw hp⟩
  · exact .inl ⟨by simpa using h, engineStep_of_not_ready (by simpa using h)⟩

/-- What no completion writes. -/
structure EngineFrame (s t : State) : Prop where
  acken : t.acken = s.acken
  en : t.en = s.en
  div : t.div = s.div
  img : t.img = s.img
  rsp : t.rsp = s.rsp
  params : t.params = s.params
  agenda : t.agenda = s.agenda
  todo : t.todo = s.todo
  fair : t.fair = s.fair
  draws : t.draws = s.draws

theorem EngineFrame.refl (s : State) : EngineFrame s s := ⟨rfl, rfl, rfl, rfl, rfl, rfl, rfl, rfl, rfl, rfl⟩

theorem SameBlock.engineFrame {s t : State} (h : SameBlock s t) : EngineFrame s t :=
  ⟨h.acken, h.en, h.div, h.img, h.rsp, h.params, h.agenda, h.todo, h.fair, h.draws⟩

theorem completeNacked_frame {s t : State} (c : StatusName) (h : SameBlock s t) :
    EngineFrame s (t.completeNacked c) := by
  unfold State.completeNacked
  split
  · exact ⟨h.acken, h.en, h.div, h.img, h.rsp, h.params, h.agenda, h.todo, h.fair, h.draws⟩
  · exact ⟨h.acken, h.en, h.div, h.img, h.rsp, h.params, h.agenda, h.todo, h.fair, h.draws⟩

theorem completePhase_frame (p : Phase) (s : State) : EngineFrame s (completePhase p s) := by
  cases p with
  | start => exact ⟨rfl, rfl, rfl, rfl, rfl, rfl, rfl, rfl, rfl, rfl⟩
  | addr =>
    simp only [completePhase, completeAddr]
    split
    · exact ⟨rfl, rfl, rfl, rfl, rfl, rfl, rfl, rfl, rfl, rfl⟩
    · exact completeNacked_frame _ (addrAsked_block _ _ _ _)
  | tx =>
    simp only [completePhase, completeTx]
    split
    · have h := writeAsked_block s s.data true
      exact ⟨h.acken, h.en, h.div, h.img, h.rsp, h.params, h.agenda, h.todo, h.fair, h.draws⟩
    · exact completeNacked_frame _ (writeAsked_block _ _ _)
  | rxAck =>
    have h := readAsked_block s true
    exact ⟨h.acken, h.en, h.div, h.img, h.rsp, h.params, h.agenda, h.todo, h.fair, h.draws⟩
  | rxNack =>
    have h := readAsked_block s false
    exact ⟨h.acken, h.en, h.div, h.img, h.rsp, h.params, h.agenda, h.todo, h.fair, h.draws⟩
  | stop => exact ⟨rfl, rfl, rfl, rfl, rfl, rfl, rfl, rfl, rfl, rfl⟩

/-- The Engine writes neither `ACKEN`, `EN`, `DIV`, the image, the response, nor a field of the model's own. -/
theorem engineStep_frame (s : State) : EngineFrame s (engineStep s) := by
  rcases engineStep_cases s with ⟨_, h⟩ | ⟨p, _, _, _, h⟩
  · rw [h]; exact EngineFrame.refl s
  · rw [h]; exact completePhase_frame p s

/-- Where the Engine is fair its due step is its step. -/
theorem dueStep_of_fair {s : State} (h : s.fair = true) : dueStep s = engineStep s := by simp [dueStep, h]

/-- Where the Engine's step is never taken nothing is due. -/
theorem dueStep_of_not_fair {s : State} (h : s.fair = false) : dueStep s = s := by simp [dueStep, h]

/-- What the Engine's step keeps, the due step keeps. -/
theorem dueStep_invariant {P : State → Prop} (hE : ∀ s, P s → P (engineStep s)) {s : State} (h : P s) : P (dueStep s) := by
  unfold dueStep
  split
  · exact hE s h
  · exact h

theorem dueStep_frame (s : State) : EngineFrame s (dueStep s) := by
  unfold dueStep
  split
  · exact engineStep_frame s
  · exact EngineFrame.refl s

/-! ## The precondition and the launch of a phase -/

theorem precheck_none_iff (cmd : Instr) (s : State) : precheck cmd s = none ↔ s.en = true ∧ s.busy = false := by
  unfold precheck
  cases hb : s.busy <;> cases he : s.en <;> simp

theorem busy_false_iff (s : State) : s.busy = false ↔ s.pend = none ∧ s.stopreq = false := by
  unfold State.busy
  cases s.pend <;> simp

/-- A launch goes on exactly when the precondition holds and the table of R128 says "ok" or "wedge". -/
theorem launch_go_iff (cmd : Instr) (p : Phase) (prep : State → State) (s t : State) :
    launch cmd p prep s = .go t ↔
      s.en = true ∧ s.busy = false ∧
        ((legality p s.bus = .ok ∧ t = (prep s).issue p) ∨
          (legality p s.bus = .wedge ∧ t = ((prep s).issue p).wedge)) := by
  unfold launch
  cases hp : precheck cmd s with
  | some f =>
    have : ¬ (s.en = true ∧ s.busy = false) := by
      intro h
      rw [(precheck_none_iff cmd s).mpr h] at hp
      cases hp
    constructor
    · intro h; cases h
    · rintro ⟨h1, h2, _⟩; exact absurd ⟨h1, h2⟩ this
  | none =>
    obtain ⟨h1, h2⟩ := (precheck_none_iff cmd s).mp hp
    cases hl : legality p s.bus <;> simp [h1, h2, eq_comm]

theorem launch_ne_park (cmd : Instr) (p : Phase) (prep : State → State) (s t : State) :
    launch cmd p prep s ≠ .park t := by
  unfold launch
  split
  · simp
  · split <;> simp

/-- A launch stops with `Disabled`, `BusyViolation` or `PhaseOrder`, in this order (R110, R183). -/
theorem launch_stop_iff (cmd : Instr) (p : Phase) (prep : State → State) (s : State) (f : Fault) :
    launch cmd p prep s = .stop f ↔
      (s.en = false ∧ f = .disabled cmd) ∨
      (s.en = true ∧ s.busy = true ∧ f = .busyViolation cmd s.pend) ∨
      (s.en = true ∧ s.busy = false ∧ legality p s.bus = .fault ∧ f = .phaseOrder cmd s.bus) := by
  unfold launch precheck
  cases he : s.en
  · simpa using eq_comm
  · cases hb : s.busy
    · cases hl : legality p s.bus
      · simp
      · simp
      · simpa using eq_comm
    · simpa using eq_comm

theorem loadAddress_eq (addr : BusAddr) (read : Bool) (s : State) (he : s.en = true) (hb : s.busy = false) :
    loadAddress addr read s = .go { s with data := addressByte addr read } := by
  unfold loadAddress
  rw [(precheck_none_iff _ s).mpr ⟨he, hb⟩]

theorem launch_ok {cmd : Instr} {p : Phase} {prep : State → State} {s : State} (he : s.en = true) (hb : s.busy = false)
    (hl : legality p s.bus = .ok) : launch cmd p prep s = .go ((prep s).issue p) :=
  (launch_go_iff _ _ _ _ _).mpr ⟨he, hb, .inl ⟨hl, rfl⟩⟩

/-! ## The awaits -/

theorem set_agenda_self (s : State) : { s with agenda := s.agenda } = s := rfl

/-- In a settled state an await gets at most the Engine's one step. -/
theorem await_of_settled {c : State → Bool} {s : State} (h : s.settled = true) :
    await c s = if c s then .go s else awaitEngine c s := by
  unfold await
  cases ha : s.agenda with
  | nil =>
    have : ({ s with agenda := [] } : State) = s := by rw [← ha]
    simp only [awaitFrom, this]
  | cons e rest =>
    unfold State.settled at h
    rw [ha] at h
    cases e with
    | cmd w =>
      have : ({ s with agenda := .cmd w :: rest } : State) = s := by rw [← ha]
      simp only [awaitFrom, this]
    | engine => cases h
    | chipTime a v => cases h
    | idle => cases h
    | rst p => cases h

theorem await_of_holds {c : State → Bool} {s : State} (h : c s = true) : await c s = .go s := by
  unfold await
  cases ha : s.agenda with
  | nil =>
    have : ({ s with agenda := [] } : State) = s := by rw [← ha]
    simp only [awaitFrom, h, this, if_true]
  | cons e rest =>
    have : ({ s with agenda := e :: rest } : State) = s := by rw [← ha]
    simp only [awaitFrom, h, this, if_true]

/-- An await that goes on: the condition holds then, and the state came from the environment's and the Engine's moves. -/
theorem awaitFrom_invariant {c : State → Bool} {P : State → Prop} (hE : ∀ s, P s → P (engineStep s))
    (hC : ∀ a v s, P s → P (chipTimeMove a v s)) (hA : ∀ s ag, P s → P { s with agenda := ag }) :
    ∀ (l : List Event) (s : State), P s →
      (∀ t, awaitFrom c l s = .go t → P t) ∧ (∀ t, awaitFrom c l s = .park t → P t) := by
  have hlast : ∀ s, P s → (∀ t, awaitEngine c s = .go t → P t) ∧ (∀ t, awaitEngine c s = .park t → P t) := by
    intro s hs
    unfold awaitEngine
    constructor <;> intro t h <;> split at h <;> cases h <;> exact dueStep_invariant hE hs
  intro l
  induction l with
  | nil =>
    intro s hs
    unfold awaitFrom
    by_cases hc : c s = true
    · simp only [hc, if_true]
      exact ⟨fun t h => by cases h; exact hA _ _ hs, fun t h => by cases h⟩
    · simp only [hc, if_false, Bool.false_eq_true]
      exact hlast _ (hA _ _ hs)
  | cons e rest ih =>
    intro s hs
    unfold awaitFrom
    by_cases hc : c s = true
    · simp only [hc, if_true]
      exact ⟨fun t h => by cases h; exact hA _ _ hs, fun t h => by cases h⟩
    · simp only [hc, if_false, Bool.false_eq_true]
      cases e with
      | cmd w => exact hlast _ (hA _ _ hs)
      | engine => exact ih _ (hE _ hs)
      | chipTime a v => exact ih _ (hC _ _ _ hs)
      | idle => exact ⟨fun t h => (by cases h), fun t h => by cases h; exact hA _ _ hs⟩
      | rst p => exact ⟨fun t h => (by cases h), fun t h => by cases h; exact hA _ _ hs⟩

theorem awaitFrom_ne_stop {c : State → Bool} (f : Fault) :
    ∀ (l : List Event) (s : State), awaitFrom c l s ≠ .stop f := by
  have hlast : ∀ s, awaitEngine c s ≠ .stop f := by
    intro s; unfold awaitEngine; split <;> simp
  intro l
  induction l with
  | nil => intro s; unfold awaitFrom; split <;> simp [hlast]
  | cons e rest ih =>
    intro s
    unfold awaitFrom
    split
    · simp
    · cases e <;> simp [hlast, ih]

theorem await_ne_stop (c : State → Bool) (s : State) (f : Fault) : await c s ≠ .stop f := awaitFrom_ne_stop f _ _

/-! ## Expansions -/

/-- Running two expansions one after the other. -/
theorem runMicros_append (xs ys : List Micro) : ∀ s : State,
    runMicros (xs ++ ys) s =
      match runMicros xs s with
      | .done t => runMicros ys t
      | .parked left t => .parked (left ++ ys) t
      | .faulted f => .faulted f := by
  induction xs with
  | nil => intro s; rfl
  | cons m ms ih =>
    intro s
    simp only [List.cons_append, runMicros]
    cases microStep m s with
    | go t => exact ih t
    | park t => rfl
    | stop f => rfl

theorem runMicros_cons_go {m : Micro} {ms : List Micro} {s t : State} (h : microStep m s = .go t) :
    runMicros (m :: ms) s = runMicros ms t := by
  simp only [runMicros, h]

theorem runMicros_append_done {xs ys : List Micro} {s t : State} (h : runMicros xs s = .done t) :
    runMicros (xs ++ ys) s = runMicros ys t := by
  rw [runMicros_append, h]

/-- What a command that is performed can do: complete, block, or fault; it is never refused. -/
theorem perform_cases (ms : List Micro) (s : State) :
    (∃ t, runMicros ms { s with rsp := none } = .done t ∧ perform ms s = .next (t.finish (t.rsp.getD 0))) ∨
    (∃ left t, runMicros ms { s with rsp := none } = .parked left t ∧ perform ms s = .next { t with todo := left }) ∨
    (∃ f, runMicros ms { s with rsp := none } = .faulted f ∧ perform ms s = .fault f) := by
  unfold perform
  cases runMicros ms { s with rsp := none } with
  | done t => exact .inl ⟨t, rfl, rfl⟩
  | parked left t => exact .inr (.inl ⟨left, t, rfl, rfl⟩)
  | faulted f => exact .inr (.inr ⟨f, rfl, rfl⟩)

theorem perform_of_done {ms : List Micro} {s t : State} (h : runMicros ms { s with rsp := none } = .done t) :
    perform ms s = .next (t.finish (t.rsp.getD 0)) := by
  simp only [perform, h]

/-- A property that every step of an expansion keeps is kept by the whole expansion, whether it completes or blocks. -/
theorem runMicros_invariant {P : State → Prop}
    (h : ∀ m s, P s → (∀ t, microStep m s = .go t → P t) ∧ (∀ t, microStep m s = .park t → P t)) :
    ∀ (ms : List Micro) (s : State), P s →
      (∀ t, runMicros ms s = .done t → P t) ∧ (∀ left t, runMicros ms s = .parked left t → P t) := by
  intro ms
  induction ms with
  | nil =>
    intro s hs
    exact ⟨fun t ht => by cases ht; exact hs, fun l t ht => by cases ht⟩
  | cons m ms ih =>
    intro s hs
    simp only [runMicros]
    cases hm : microStep m s with
    | go t => exact ih t ((h m s hs).1 t hm)
    | park t => exact ⟨fun u hu => (by cases hu), fun l u hu => by cases hu; exact (h m s hs).2 _ hm⟩
    | stop f => exact ⟨fun u hu => (by cases hu), fun l u hu => by cases hu⟩

/-! ## The step -/

/-- A step with the command port ready, the host next and a legal word runs the decoded command. -/
theorem step_of_cmd {s : State} {w : CmdWord} {rest : List Event} {i : Instr} (ht : s.todo = [])
    (ha : s.agenda = .cmd w :: rest) (hd : decode w = .ok i) : step s = exec i { s with agenda := rest } := by
  simp [step, turn, State.cmdReady, ht, readyTurn, ha, issueWord, hd]

/-- Everything a step can do, by the agent that moves. -/
theorem step_cases (s : State) :
    (s.todo = [] ∧ s.agenda = [] ∧ step s = .next (dueStep { s with rsp := none })) ∨
    (∃ w rest, s.todo = [] ∧ s.agenda = .cmd w :: rest ∧ step s = issueWord w { s with agenda := rest }) ∨
    (∃ rest, s.todo = [] ∧ s.agenda = .engine :: rest ∧
      step s = .next (engineStep { s with agenda := rest, rsp := none })) ∨
    (∃ a v rest, s.todo = [] ∧ s.agenda = .chipTime a v :: rest ∧
      step s = .next (chipTimeMove a v { s with agenda := rest, rsp := none })) ∨
    (∃ rest, s.agenda = .idle :: rest ∧ step s = .next { s with agenda := rest, rsp := none }) ∨
    (∃ p rest, s.agenda = .rst p :: rest ∧ step s = .next (blockReset p { s with agenda := rest })) ∨
    (s.todo ≠ [] ∧ (∀ rest, s.agenda ≠ .idle :: rest) ∧ (∀ p rest, s.agenda ≠ .rst p :: rest) ∧
      step s = perform s.todo s) := by
  have hs : step s = if s.cmdReady then readyTurn s else blockedTurn s := rfl
  by_cases ht : s.todo = []
  · have hr : s.cmdReady = true := by simp [State.cmdReady, ht]
    rw [hr, if_pos rfl] at hs
    unfold readyTurn at hs
    cases ha : s.agenda with
    | nil => rw [ha] at hs; exact .inl ⟨ht, rfl, hs⟩
    | cons e rest =>
      rw [ha] at hs
      cases e with
      | cmd w => exact .inr (.inl ⟨w, rest, ht, rfl, hs⟩)
      | engine => exact .inr (.inr (.inl ⟨rest, ht, rfl, hs⟩))
      | chipTime a v => exact .inr (.inr (.inr (.inl ⟨a, v, rest, ht, rfl, hs⟩)))
      | idle => exact .inr (.inr (.inr (.inr (.inl ⟨rest, rfl, hs⟩))))
      | rst p => exact .inr (.inr (.inr (.inr (.inr (.inl ⟨p, rest, rfl, hs⟩)))))
  · have hr : s.cmdReady = false := by simp [State.cmdReady, ht]
    rw [hr, if_neg (by simp)] at hs
    unfold blockedTurn at hs
    cases ha : s.agenda with
    | nil => rw [ha] at hs; exact .inr (.inr (.inr (.inr (.inr (.inr ⟨ht, by simp, by simp, hs⟩)))))
    | cons e rest =>
      rw [ha] at hs
      cases e with
      | cmd w => exact .inr (.inr (.inr (.inr (.inr (.inr ⟨ht, by simp, by simp, hs⟩)))))
      | engine => exact .inr (.inr (.inr (.inr (.inr (.inr ⟨ht, by simp, by simp, hs⟩)))))
      | chipTime a v => exact .inr (.inr (.inr (.inr (.inr (.inr ⟨ht, by simp, by simp, hs⟩)))))
      | idle => exact .inr (.inr (.inr (.inr (.inl ⟨rest, rfl, hs⟩))))
      | rst p => exact .inr (.inr (.inr (.inr (.inr (.inl ⟨p, rest, rfl, hs⟩)))))

end Sys2Proof.Machine
end

