-- ==== Sys2Proof/Laws/Engine.lean ====
section
/-! SUPPORT. The Engine's step reads neither the response, the agenda nor the rest of the command in progress, and where it
does nothing; the awaits of a settled state; a blocked command. -/

namespace Sys2Proof.Machine

/-- The host's side of the state: the response, the agenda and the rest of the command in progress. -/
def State.withHost (s : State) (rsp : Option Byte) (agenda : List Event) (todo : List Micro) : State :=
  { s with rsp := rsp, agenda := agenda, todo := todo }

theorem chipTakes_withHost (s : State) (d : Byte) (x : Option Byte) (y : List Event) (z : List Micro) :
    chipTakes (s.withHost x y z) d = (chipTakes s d).withHost x y z := by
  unfold chipTakes
  by_cases h : s.chipPtrNext = true
  · simp [State.withHost, h]
  · by_cases h2 : mappedPtr s.ptr = true <;> simp [State.withHost, h, h2]

theorem writeAsked_withHost (s : State) (d : Byte) (ack : Bool) (x : Option Byte) (y : List Event) (z : List Micro) :
    writeAsked (s.withHost x y z) d ack = (writeAsked s d ack).withHost x y z := by
  unfold writeAsked
  by_cases h : (ack && s.clockSelected) = true
  · have h' : (ack && (s.withHost x y z).clockSelected) = true := h
    rw [if_pos h, if_pos h', chipTakes_withHost]; rfl
  · have h' : ¬ (ack && (s.withHost x y z).clockSelected) = true := h
    rw [if_neg h, if_neg h']; rfl

theorem readAsked_withHost (s : State) (ack : Bool) (x : Option Byte) (y : List Event) (z : List Micro) :
    readAsked (s.withHost x y z) ack = (readAsked s ack).withHost x y z := by
  unfold readAsked
  by_cases h : s.clockSelected = true
  · have h' : (s.withHost x y z).clockSelected = true := h
    rw [if_pos h, if_pos h']
    by_cases h2 : mappedPtr s.ptr = true
    · have h2' : mappedPtr (s.withHost x y z).ptr = true := h2
      rw [if_pos h2, if_pos h2']; rfl
    · have h2' : ¬ mappedPtr (s.withHost x y z).ptr = true := h2
      rw [if_neg h2, if_neg h2']; rfl
  · have h' : ¬ (s.withHost x y z).clockSelected = true := h
    rw [if_neg h, if_neg h']; rfl

theorem completeNacked_withHost (s : State) (c : StatusName) (x : Option Byte) (y : List Event) (z : List Micro) :
    (s.withHost x y z).completeNacked c = (s.completeNacked c).withHost x y z := by
  unfold State.completeNacked
  by_cases h : s.params.nackCompletes = true
  · have h' : (s.withHost x y z).params.nackCompletes = true := h
    rw [if_pos h, if_pos h']; rfl
  · have h' : ¬ (s.withHost x y z).params.nackCompletes = true := h
    rw [if_neg h, if_neg h']; rfl

theorem completePhase_withHost (p : Phase) (s : State) (x : Option Byte) (y : List Event) (z : List Micro) :
    completePhase p (s.withHost x y z) = (completePhase p s).withHost x y z := by
  cases p with
  | start => rfl
  | addr =>
    simp only [completePhase, completeAddr]
    have e : addrAnswer (s.withHost x y z) (addressOf (s.withHost x y z).data) (directionOf (s.withHost x y z).data) =
        addrAnswer s (addressOf s.data) (directionOf s.data) := rfl
    rw [e]
    split
    · rfl
    · exact completeNacked_withHost (addrAsked s (addressOf s.data) (directionOf s.data) false) _ x y z
  | tx =>
    simp only [completePhase, completeTx]
    have e : writeAnswer (s.withHost x y z) (s.withHost x y z).data = writeAnswer s s.data := rfl
    rw [e, show (s.withHost x y z).data = s.data from rfl]
    split
    · rw [writeAsked_withHost]; rfl
    · rw [writeAsked_withHost]; exact completeNacked_withHost _ _ _ _ _
  | rxAck => simp only [completePhase, completeRx, readAsked_withHost]; rfl
  | rxNack => simp only [completePhase, completeRx, readAsked_withHost]; rfl
  | stop => rfl

/-- The Engine's step does not depend on the host's side of the state, and keeps it. -/
theorem engineStep_withHost (s : State) (x : Option Byte) (y : List Event) (z : List Micro) :
    engineStep (s.withHost x y z) = (engineStep s).withHost x y z := by
  unfold engineStep
  rw [show engineReady (s.withHost x y z) = engineReady s from rfl]
  split
  · rw [show (s.withHost x y z).pend = s.pend from rfl]
    cases s.pend with
    | none => rfl
    | some p => exact completePhase_withHost p s x y z
  · rfl

theorem dueStep_withHost (s : State) (x : Option Byte) (y : List Event) (z : List Micro) :
    dueStep (s.withHost x y z) = (dueStep s).withHost x y z := by
  unfold dueStep
  rw [show (s.withHost x y z).fair = s.fair from rfl, engineStep_withHost]
  split <;> rfl

theorem engineStep_of_wedged {s : State} (h : s.wedged = true) : engineStep s = s :=
  engineStep_of_not_ready (by simp [engineReady, h])

theorem engineStep_of_no_pend {s : State} (h : s.pend = none) : engineStep s = s :=
  engineStep_of_not_ready (by simp [engineReady, h])

theorem engineStep_of_disabled {s : State} (h : s.en = false) : engineStep s = s :=
  engineStep_of_not_ready (by simp [engineReady, h])

/-- `settled` is about the agenda alone. -/
theorem settled_congr {s t : State} (h : t.agenda = s.agenda) : t.settled = s.settled := by
  unfold State.settled; rw [h]

theorem settled_engineStep (s : State) : (engineStep s).settled = s.settled :=
  settled_congr (engineStep_frame s).agenda

theorem served_iff (s : State) : s.served = true ↔ s.settled = true ∧ s.fair = true := by simp [State.served]

/-- `served` is about the agenda and the Engine's fairness alone. -/
theorem served_congr {s t : State} (ha : t.agenda = s.agenda) (hf : t.fair = s.fair) : t.served = s.served := by
  simp [State.served, settled_congr ha, hf]

theorem served_engineStep (s : State) : (engineStep s).served = s.served :=
  served_congr (engineStep_frame s).agenda (engineStep_frame s).fair

/-- In a settled state an await whose condition does not hold blocks where the due step does not bring it about. -/
theorem await_park {c : State → Bool} {s : State} (hs : s.settled = true) (h0 : c s = false)
    (h : c (dueStep s) = false) : await c s = .park (dueStep s) := by
  rw [await_of_settled hs]; simp [h0, awaitEngine, h]

/-- In a served state an await whose condition the Engine's step brings about goes on with that step. -/
theorem await_go {c : State → Bool} {s : State} (hs : s.served = true) (h0 : c s = false) (h : c (engineStep s) = true) :
    await c s = .go (engineStep s) := by
  obtain ⟨hs, hf⟩ := (served_iff s).mp hs
  rw [await_of_settled hs]; simp [h0, awaitEngine, dueStep_of_fair hf, h]

theorem quiet_iff (s : State) :
    s.quiet = true ↔ s.en = true ∧ s.pend = none ∧ s.stopreq = false ∧ s.wedged = false := by
  simp [State.quiet, busy_false_iff, and_assoc]

theorem perform_of_parked {ms left : List Micro} {s t : State} (h : runMicros ms { s with rsp := none } = .parked left t) :
    perform ms s = .next { t with todo := left } := by
  simp only [perform, h]

theorem perform_of_faulted {ms : List Micro} {s : State} {f : Fault} (h : runMicros ms { s with rsp := none } = .faulted f) :
    perform ms s = .fault f := by
  simp only [perform, h]

/-- An expansion that blocks has a step left. -/
theorem runMicros_parked_ne_nil : ∀ (ms : List Micro) {s t : State} {left : List Micro},
    runMicros ms s = .parked left t → left ≠ []
  | [], _, _, _, h => by cases h
  | m :: ms, s, t, left, h => by
    simp only [runMicros] at h
    cases hm : microStep m s with
    | go u => rw [hm] at h; exact runMicros_parked_ne_nil ms h
    | park u => rw [hm] at h; cases h; simp
    | stop f => rw [hm] at h; cases h

/-- A command in progress whose next step blocks without changing the state hangs. -/
theorem hangs_of_park {s : State} {m : Micro} {left : List Micro} (ht : s.todo = m :: left) (hs : s.settled = true)
    (hr : s.rsp = none) (hp : microStep m s = .park s) : Hangs s := by
  have hc : s.cmdReady = false := by simp [State.cmdReady, ht]
  have hst : step s = perform s.todo s := by
    rcases step_cases s with ⟨h, _⟩ | ⟨_, _, h, _⟩ | ⟨_, h, _⟩ | ⟨_, _, _, h, _⟩ | ⟨_, h, _⟩ | ⟨_, _, h, _⟩ | ⟨_, _, _, h⟩
    · simp [ht] at h
    · simp [ht] at h
    · simp [ht] at h
    · simp [ht] at h
    · simp [State.settled, h] at hs
    · simp [State.settled, h] at hs
    · exact h
  have e : ({ s with rsp := none } : State) = s := by rw [← hr]
  refine ⟨hc, ?_⟩
  rw [hst, ht, perform_of_parked (left := m :: left) (t := s) (by rw [e]; simp only [runMicros, hp]), ← ht]

end Sys2Proof.Machine
end

