-- ==== Sys2Proof/Laws/Fields.lean ====
section
/-! SUPPORT. What the field accessors do, bit by bit and for any field table: the mask, the extraction, the insertion, the rows
of a table of a build that exists, and the two field commands. -/

namespace Sys2Proof.Machine

theorem getLsbD_lowMask (w k : Nat) (hk : k < 8) : (lowMask w).getLsbD k = decide (k < w) := by
  rw [lowMask, BitVec.getLsbD_ofNat, Nat.testBit_two_pow_sub_one]
  simp [hk]

/-- A bit above a value's size is 0. -/
theorem getLsbD_of_lt_two_pow {v : Byte} {w k : Nat} (hv : v.toNat < 2 ^ w) (hk : w ≤ k) : v.getLsbD k = false := by
  rw [BitVec.getLsbD]
  exact Nat.testBit_lt_two_pow (Nat.lt_of_lt_of_le hv (Nat.pow_le_pow_right (by omega) hk))

/-- The bits GETF answers (R150). -/
theorem getLsbD_extractField (d : FieldDesc) (x : Byte) (k : Nat) (hk : k < 8) :
    (extractField d x).getLsbD k = (decide (k < d.width) && x.getLsbD (d.lsb + k)) := by
  rw [extractField, BitVec.getLsbD_and, getLsbD_lowMask _ _ hk, BitVec.getLsbD_ushiftRight, Bool.and_comm]

/-- What GETF answers fits the field. -/
theorem extractField_lt (d : FieldDesc) (x : Byte) : (extractField d x).toNat < 2 ^ d.width := by
  rw [extractField, BitVec.toNat_and]
  refine Nat.lt_of_le_of_lt Nat.and_le_right ?_
  rw [lowMask, BitVec.toNat_ofNat]
  have := Nat.two_pow_pos d.width
  exact Nat.lt_of_le_of_lt (Nat.mod_le _ _) (by omega)

/-- The bits of a byte after SETF of a value that fits (R151). -/
theorem getLsbD_insertField (d : FieldDesc) (x v : Byte) (k : Nat) (hk : k < 8) (hv : v.toNat < 2 ^ d.width) :
    (insertField d x v).getLsbD k = if d.lsb ≤ k ∧ k < d.lsb + d.width then v.getLsbD (k - d.lsb) else x.getLsbD k := by
  rw [insertField, BitVec.getLsbD_or, BitVec.getLsbD_and, BitVec.getLsbD_not, BitVec.getLsbD_shiftLeft,
    BitVec.getLsbD_shiftLeft]
  by_cases h1 : d.lsb ≤ k
  · rw [getLsbD_lowMask _ _ (by omega)]
    by_cases h2 : k < d.lsb + d.width
    · simp [hk, h1, h2, show ¬ k < d.lsb by omega, show k - d.lsb < d.width by omega]
    · simp [hk, h2, show ¬ k < d.lsb by omega, show ¬ k - d.lsb < d.width by omega,
        getLsbD_of_lt_two_pow hv (show d.width ≤ k - d.lsb by omega)]
  · simp [hk, h1, show k < d.lsb by omega]

/-- In a table of fields inside one byte, every row is one (R152). -/
theorem fieldDesc_ok {ft : FieldTable} (h : fieldTableOk ft = true) (f : Field) :
    1 ≤ (fieldDesc ft f).width ∧ (fieldDesc ft f).lsb + (fieldDesc ft f).width ≤ 8 := by
  have := List.all_eq_true.mp h (fieldDesc ft f) (by simp [fieldDesc])
  simpa [fieldDescOk] using this

/-- The table R88 gives is one of fields inside one byte. -/
theorem fieldTableOk_fieldTable : fieldTableOk fieldTable = true := by decide

/-- GETF of a field, whichever constructor it is. -/
theorem exec_getfOf (f : Field) (s : State) : exec (getfOf f) s = readFieldCommand f s := by cases f <;> rfl

/-- SETF of a field, whichever constructor it is. -/
theorem exec_setfOf (f : Field) (v : Byte) (s : State) : exec (setfOf v f) s = writeFieldCommand f v s := by
  cases f <;> rfl

/-- SETF of a value that fits. -/
theorem writeFieldCommand_fits {f : Field} {v : Byte} {s : State} (h : v.toNat < 2 ^ (fieldDesc s.params.ft f).width) :
    writeFieldCommand f v s = .next ({ s with img := writeField (fieldDesc s.params.ft f) v s.img }.finish 0) := by
  rw [writeFieldCommand, if_pos]
  simpa [fitsField] using h

end Sys2Proof.Machine
end

