-- ==== Sys2Proof/Laws/PerInstr.lean ====
section
/-! SUPPORT. The family `EncodedOpcode`, one lemma per constructor of `Instr`: the encoded word carries in `cmd[23:16]` the
opcode of the command's format (spec/30_encoding.md R80, R89). -/

namespace Sys2Proof.Laws

/-- The opcode a format carries. -/
def fmtOpcode : Fmt → Byte
  | .n op => op
  | .b op _ => op
  | .a op _ _ => op
  | .r op _ _ => op
  | .f op _ => op
  | .s op _ _ => op

theorem opByte_wordOf (f : Fmt) : opByte (wordOf f) = fmtOpcode f := by
  cases f <;> exact opByte_packWord _ _ _

/-- The word of `i` carries the opcode of its format. -/
def EncodedOpcode.Statement (i : Instr) : Prop := opByte (encode i) = fmtOpcode (Machine.fmtOf i)

theorem statement_of_fmt (i : Instr) : EncodedOpcode.Statement i := opByte_wordOf _

theorem EncodedOpcode.init : EncodedOpcode.Statement (.init) := statement_of_fmt _
theorem EncodedOpcode.enable : EncodedOpcode.Statement (.enable) := statement_of_fmt _
theorem EncodedOpcode.disable : EncodedOpcode.Statement (.disable) := statement_of_fmt _
theorem EncodedOpcode.status : EncodedOpcode.Statement (.status) := statement_of_fmt _
theorem EncodedOpcode.start : EncodedOpcode.Statement (.start) := statement_of_fmt _
theorem EncodedOpcode.stop : EncodedOpcode.Statement (.stop) := statement_of_fmt _
theorem EncodedOpcode.wait : EncodedOpcode.Statement (.wait) := statement_of_fmt _
theorem EncodedOpcode.waitstop : EncodedOpcode.Statement (.waitstop) := statement_of_fmt _
theorem EncodedOpcode.setaddr (addr : BusAddr) (read : Bool) : EncodedOpcode.Statement (.setaddr addr read) := statement_of_fmt _
theorem EncodedOpcode.xferaddr : EncodedOpcode.Statement (.xferaddr) := statement_of_fmt _
theorem EncodedOpcode.sendbyte (d : Byte) : EncodedOpcode.Statement (.sendbyte d) := statement_of_fmt _
theorem EncodedOpcode.recv : EncodedOpcode.Statement (.recv) := statement_of_fmt _
theorem EncodedOpcode.recvlast : EncodedOpcode.Statement (.recvlast) := statement_of_fmt _
theorem EncodedOpcode.beginXfer (addr : BusAddr) (read : Bool) : EncodedOpcode.Statement (.beginXfer addr read) := statement_of_fmt _
theorem EncodedOpcode.endXfer : EncodedOpcode.Statement (.endXfer) := statement_of_fmt _
theorem EncodedOpcode.refresh (start count : Byte) : EncodedOpcode.Statement (.refresh start count) := statement_of_fmt _
theorem EncodedOpcode.commit (start count : Byte) : EncodedOpcode.Statement (.commit start count) := statement_of_fmt _
theorem EncodedOpcode.getfSecOnes : EncodedOpcode.Statement .getfSecOnes := statement_of_fmt _
theorem EncodedOpcode.getfSecTens : EncodedOpcode.Statement .getfSecTens := statement_of_fmt _
theorem EncodedOpcode.getfMinOnes : EncodedOpcode.Statement .getfMinOnes := statement_of_fmt _
theorem EncodedOpcode.getfMinTens : EncodedOpcode.Statement .getfMinTens := statement_of_fmt _
theorem EncodedOpcode.getfHrOnes : EncodedOpcode.Statement .getfHrOnes := statement_of_fmt _
theorem EncodedOpcode.getfHrTens : EncodedOpcode.Statement .getfHrTens := statement_of_fmt _
theorem EncodedOpcode.getfHrPm : EncodedOpcode.Statement .getfHrPm := statement_of_fmt _
theorem EncodedOpcode.getfHr12 : EncodedOpcode.Statement .getfHr12 := statement_of_fmt _
theorem EncodedOpcode.getfDow : EncodedOpcode.Statement .getfDow := statement_of_fmt _
theorem EncodedOpcode.getfDateOnes : EncodedOpcode.Statement .getfDateOnes := statement_of_fmt _
theorem EncodedOpcode.getfDateTens : EncodedOpcode.Statement .getfDateTens := statement_of_fmt _
theorem EncodedOpcode.getfMonOnes : EncodedOpcode.Statement .getfMonOnes := statement_of_fmt _
theorem EncodedOpcode.getfMonTens : EncodedOpcode.Statement .getfMonTens := statement_of_fmt _
theorem EncodedOpcode.getfCentury : EncodedOpcode.Statement .getfCentury := statement_of_fmt _
theorem EncodedOpcode.getfYrOnes : EncodedOpcode.Statement .getfYrOnes := statement_of_fmt _
theorem EncodedOpcode.getfYrTens : EncodedOpcode.Statement .getfYrTens := statement_of_fmt _
theorem EncodedOpcode.getfA1SecOnes : EncodedOpcode.Statement .getfA1SecOnes := statement_of_fmt _
theorem EncodedOpcode.getfA1SecTens : EncodedOpcode.Statement .getfA1SecTens := statement_of_fmt _
theorem EncodedOpcode.getfA1M1 : EncodedOpcode.Statement .getfA1M1 := statement_of_fmt _
theorem EncodedOpcode.getfA1MinOnes : EncodedOpcode.Statement .getfA1MinOnes := statement_of_fmt _
theorem EncodedOpcode.getfA1MinTens : EncodedOpcode.Statement .getfA1MinTens := statement_of_fmt _
theorem EncodedOpcode.getfA1M2 : EncodedOpcode.Statement .getfA1M2 := statement_of_fmt _
theorem EncodedOpcode.getfA1HrOnes : EncodedOpcode.Statement .getfA1HrOnes := statement_of_fmt _
theorem EncodedOpcode.getfA1HrTens : EncodedOpcode.Statement .getfA1HrTens := statement_of_fmt _
theorem EncodedOpcode.getfA1HrPm : EncodedOpcode.Statement .getfA1HrPm := statement_of_fmt _
theorem EncodedOpcode.getfA1Hr12 : EncodedOpcode.Statement .getfA1Hr12 := statement_of_fmt _
theorem EncodedOpcode.getfA1M3 : EncodedOpcode.Statement .getfA1M3 := statement_of_fmt _
theorem EncodedOpcode.getfA1DdOnes : EncodedOpcode.Statement .getfA1DdOnes := statement_of_fmt _
theorem EncodedOpcode.getfA1DdTens : EncodedOpcode.Statement .getfA1DdTens := statement_of_fmt _
theorem EncodedOpcode.getfA1Dydt : EncodedOpcode.Statement .getfA1Dydt := statement_of_fmt _
theorem EncodedOpcode.getfA1M4 : EncodedOpcode.Statement .getfA1M4 := statement_of_fmt _
theorem EncodedOpcode.getfA2MinOnes : EncodedOpcode.Statement .getfA2MinOnes := statement_of_fmt _
theorem EncodedOpcode.getfA2MinTens : EncodedOpcode.Statement .getfA2MinTens := statement_of_fmt _
theorem EncodedOpcode.getfA2M2 : EncodedOpcode.Statement .getfA2M2 := statement_of_fmt _
theorem EncodedOpcode.getfA2HrOnes : EncodedOpcode.Statement .getfA2HrOnes := statement_of_fmt _
theorem EncodedOpcode.getfA2HrTens : EncodedOpcode.Statement .getfA2HrTens := statement_of_fmt _
theorem EncodedOpcode.getfA2HrPm : EncodedOpcode.Statement .getfA2HrPm := statement_of_fmt _
theorem EncodedOpcode.getfA2Hr12 : EncodedOpcode.Statement .getfA2Hr12 := statement_of_fmt _
theorem EncodedOpcode.getfA2M3 : EncodedOpcode.Statement .getfA2M3 := statement_of_fmt _
theorem EncodedOpcode.getfA2DdOnes : EncodedOpcode.Statement .getfA2DdOnes := statement_of_fmt _
theorem EncodedOpcode.getfA2DdTens : EncodedOpcode.Statement .getfA2DdTens := statement_of_fmt _
theorem EncodedOpcode.getfA2Dydt : EncodedOpcode.Statement .getfA2Dydt := statement_of_fmt _
theorem EncodedOpcode.getfA2M4 : EncodedOpcode.Statement .getfA2M4 := statement_of_fmt _
theorem EncodedOpcode.getfA1IE : EncodedOpcode.Statement .getfA1IE := statement_of_fmt _
theorem EncodedOpcode.getfA2IE : EncodedOpcode.Statement .getfA2IE := statement_of_fmt _
theorem EncodedOpcode.getfIntcn : EncodedOpcode.Statement .getfIntcn := statement_of_fmt _
theorem EncodedOpcode.getfRS1 : EncodedOpcode.Statement .getfRS1 := statement_of_fmt _
theorem EncodedOpcode.getfRS2 : EncodedOpcode.Statement .getfRS2 := statement_of_fmt _
theorem EncodedOpcode.getfConv : EncodedOpcode.Statement .getfConv := statement_of_fmt _
theorem EncodedOpcode.getfBbsqw : EncodedOpcode.Statement .getfBbsqw := statement_of_fmt _
theorem EncodedOpcode.getfEosc : EncodedOpcode.Statement .getfEosc := statement_of_fmt _
theorem EncodedOpcode.getfA1F : EncodedOpcode.Statement .getfA1F := statement_of_fmt _
theorem EncodedOpcode.getfA2F : EncodedOpcode.Statement .getfA2F := statement_of_fmt _
theorem EncodedOpcode.getfBsy : EncodedOpcode.Statement .getfBsy := statement_of_fmt _
theorem EncodedOpcode.getfEN32K : EncodedOpcode.Statement .getfEN32K := statement_of_fmt _
theorem EncodedOpcode.getfOsf : EncodedOpcode.Statement .getfOsf := statement_of_fmt _
theorem EncodedOpcode.getfAging : EncodedOpcode.Statement .getfAging := statement_of_fmt _
theorem EncodedOpcode.getfTempInt : EncodedOpcode.Statement .getfTempInt := statement_of_fmt _
theorem EncodedOpcode.getfTempFrac : EncodedOpcode.Statement .getfTempFrac := statement_of_fmt _
theorem EncodedOpcode.setfSecOnes (v : Byte) : EncodedOpcode.Statement (.setfSecOnes v) := statement_of_fmt _
theorem EncodedOpcode.setfSecTens (v : Byte) : EncodedOpcode.Statement (.setfSecTens v) := statement_of_fmt _
theorem EncodedOpcode.setfMinOnes (v : Byte) : EncodedOpcode.Statement (.setfMinOnes v) := statement_of_fmt _
theorem EncodedOpcode.setfMinTens (v : Byte) : EncodedOpcode.Statement (.setfMinTens v) := statement_of_fmt _
theorem EncodedOpcode.setfHrOnes (v : Byte) : EncodedOpcode.Statement (.setfHrOnes v) := statement_of_fmt _
theorem EncodedOpcode.setfHrTens (v : Byte) : EncodedOpcode.Statement (.setfHrTens v) := statement_of_fmt _
theorem EncodedOpcode.setfHrPm (v : Byte) : EncodedOpcode.Statement (.setfHrPm v) := statement_of_fmt _
theorem EncodedOpcode.setfHr12 (v : Byte) : EncodedOpcode.Statement (.setfHr12 v) := statement_of_fmt _
theorem EncodedOpcode.setfDow (v : Byte) : EncodedOpcode.Statement (.setfDow v) := statement_of_fmt _
theorem EncodedOpcode.setfDateOnes (v : Byte) : EncodedOpcode.Statement (.setfDateOnes v) := statement_of_fmt _
theorem EncodedOpcode.setfDateTens (v : Byte) : EncodedOpcode.Statement (.setfDateTens v) := statement_of_fmt _
theorem EncodedOpcode.setfMonOnes (v : Byte) : EncodedOpcode.Statement (.setfMonOnes v) := statement_of_fmt _
theorem EncodedOpcode.setfMonTens (v : Byte) : EncodedOpcode.Statement (.setfMonTens v) := statement_of_fmt _
theorem EncodedOpcode.setfCentury (v : Byte) : EncodedOpcode.Statement (.setfCentury v) := statement_of_fmt _
theorem EncodedOpcode.setfYrOnes (v : Byte) : EncodedOpcode.Statement (.setfYrOnes v) := statement_of_fmt _
theorem EncodedOpcode.setfYrTens (v : Byte) : EncodedOpcode.Statement (.setfYrTens v) := statement_of_fmt _
theorem EncodedOpcode.setfA1SecOnes (v : Byte) : EncodedOpcode.Statement (.setfA1SecOnes v) := statement_of_fmt _
theorem EncodedOpcode.setfA1SecTens (v : Byte) : EncodedOpcode.Statement (.setfA1SecTens v) := statement_of_fmt _
theorem EncodedOpcode.setfA1M1 (v : Byte) : EncodedOpcode.Statement (.setfA1M1 v) := statement_of_fmt _
theorem EncodedOpcode.setfA1MinOnes (v : Byte) : EncodedOpcode.Statement (.setfA1MinOnes v) := statement_of_fmt _
theorem EncodedOpcode.setfA1MinTens (v : Byte) : EncodedOpcode.Statement (.setfA1MinTens v) := statement_of_fmt _
theorem EncodedOpcode.setfA1M2 (v : Byte) : EncodedOpcode.Statement (.setfA1M2 v) := statement_of_fmt _
theorem EncodedOpcode.setfA1HrOnes (v : Byte) : EncodedOpcode.Statement (.setfA1HrOnes v) := statement_of_fmt _
theorem EncodedOpcode.setfA1HrTens (v : Byte) : EncodedOpcode.Statement (.setfA1HrTens v) := statement_of_fmt _
theorem EncodedOpcode.setfA1HrPm (v : Byte) : EncodedOpcode.Statement (.setfA1HrPm v) := statement_of_fmt _
theorem EncodedOpcode.setfA1Hr12 (v : Byte) : EncodedOpcode.Statement (.setfA1Hr12 v) := statement_of_fmt _
theorem EncodedOpcode.setfA1M3 (v : Byte) : EncodedOpcode.Statement (.setfA1M3 v) := statement_of_fmt _
theorem EncodedOpcode.setfA1DdOnes (v : Byte) : EncodedOpcode.Statement (.setfA1DdOnes v) := statement_of_fmt _
theorem EncodedOpcode.setfA1DdTens (v : Byte) : EncodedOpcode.Statement (.setfA1DdTens v) := statement_of_fmt _
theorem EncodedOpcode.setfA1Dydt (v : Byte) : EncodedOpcode.Statement (.setfA1Dydt v) := statement_of_fmt _
theorem EncodedOpcode.setfA1M4 (v : Byte) : EncodedOpcode.Statement (.setfA1M4 v) := statement_of_fmt _
theorem EncodedOpcode.setfA2MinOnes (v : Byte) : EncodedOpcode.Statement (.setfA2MinOnes v) := statement_of_fmt _
theorem EncodedOpcode.setfA2MinTens (v : Byte) : EncodedOpcode.Statement (.setfA2MinTens v) := statement_of_fmt _
theorem EncodedOpcode.setfA2M2 (v : Byte) : EncodedOpcode.Statement (.setfA2M2 v) := statement_of_fmt _
theorem EncodedOpcode.setfA2HrOnes (v : Byte) : EncodedOpcode.Statement (.setfA2HrOnes v) := statement_of_fmt _
theorem EncodedOpcode.setfA2HrTens (v : Byte) : EncodedOpcode.Statement (.setfA2HrTens v) := statement_of_fmt _
theorem EncodedOpcode.setfA2HrPm (v : Byte) : EncodedOpcode.Statement (.setfA2HrPm v) := statement_of_fmt _
theorem EncodedOpcode.setfA2Hr12 (v : Byte) : EncodedOpcode.Statement (.setfA2Hr12 v) := statement_of_fmt _
theorem EncodedOpcode.setfA2M3 (v : Byte) : EncodedOpcode.Statement (.setfA2M3 v) := statement_of_fmt _
theorem EncodedOpcode.setfA2DdOnes (v : Byte) : EncodedOpcode.Statement (.setfA2DdOnes v) := statement_of_fmt _
theorem EncodedOpcode.setfA2DdTens (v : Byte) : EncodedOpcode.Statement (.setfA2DdTens v) := statement_of_fmt _
theorem EncodedOpcode.setfA2Dydt (v : Byte) : EncodedOpcode.Statement (.setfA2Dydt v) := statement_of_fmt _
theorem EncodedOpcode.setfA2M4 (v : Byte) : EncodedOpcode.Statement (.setfA2M4 v) := statement_of_fmt _
theorem EncodedOpcode.setfA1IE (v : Byte) : EncodedOpcode.Statement (.setfA1IE v) := statement_of_fmt _
theorem EncodedOpcode.setfA2IE (v : Byte) : EncodedOpcode.Statement (.setfA2IE v) := statement_of_fmt _
theorem EncodedOpcode.setfIntcn (v : Byte) : EncodedOpcode.Statement (.setfIntcn v) := statement_of_fmt _
theorem EncodedOpcode.setfRS1 (v : Byte) : EncodedOpcode.Statement (.setfRS1 v) := statement_of_fmt _
theorem EncodedOpcode.setfRS2 (v : Byte) : EncodedOpcode.Statement (.setfRS2 v) := statement_of_fmt _
theorem EncodedOpcode.setfConv (v : Byte) : EncodedOpcode.Statement (.setfConv v) := statement_of_fmt _
theorem EncodedOpcode.setfBbsqw (v : Byte) : EncodedOpcode.Statement (.setfBbsqw v) := statement_of_fmt _
theorem EncodedOpcode.setfEosc (v : Byte) : EncodedOpcode.Statement (.setfEosc v) := statement_of_fmt _
theorem EncodedOpcode.setfA1F (v : Byte) : EncodedOpcode.Statement (.setfA1F v) := statement_of_fmt _
theorem EncodedOpcode.setfA2F (v : Byte) : EncodedOpcode.Statement (.setfA2F v) := statement_of_fmt _
theorem EncodedOpcode.setfBsy (v : Byte) : EncodedOpcode.Statement (.setfBsy v) := statement_of_fmt _
theorem EncodedOpcode.setfEN32K (v : Byte) : EncodedOpcode.Statement (.setfEN32K v) := statement_of_fmt _
theorem EncodedOpcode.setfOsf (v : Byte) : EncodedOpcode.Statement (.setfOsf v) := statement_of_fmt _
theorem EncodedOpcode.setfAging (v : Byte) : EncodedOpcode.Statement (.setfAging v) := statement_of_fmt _
theorem EncodedOpcode.setfTempInt (v : Byte) : EncodedOpcode.Statement (.setfTempInt v) := statement_of_fmt _
theorem EncodedOpcode.setfTempFrac (v : Byte) : EncodedOpcode.Statement (.setfTempFrac v) := statement_of_fmt _

end Sys2Proof.Laws
end

