-- ==== Sys2Proof/Tests/Slice0.lean ====
section
/-! SUPPORT. The author's tests. Expected values come from spec/95_test_vectors.md (named V-… or X…) and spec/30_encoding.md,
not from the model. First the words, the ill-formed terms and the field table; then one-step vectors; then, for every
obligation with hypotheses, a concrete state that meets them. -/

open Sys2Proof Sys2Proof.Machine

namespace Sys2Proof.Tests

/-! ## States -/

/-- The parameters of spec/95_test_vectors.md part 0, with a clock of 16 MHz and a bus of 100 kHz. -/
def params : Params := ⟨16000000, 100000, 0x68, 0x27, 0x50, true, fieldTable⟩

/-- The chip contents of spec/95_test_vectors.md 2.5. -/
def chipBytes : List Byte :=
  [0x56, 0x34, 0x12, 0x03, 0x09, 0x91, 0x26, 0x80, 0x80, 0x80, 0x80, 0x30, 0x06, 0x80, 0x1C, 0x88, 0xFE, 0xE7, 0xC0]

/-- A byte space with these bytes from address 0 on. -/
def bytes (l : List Byte) : Memory := Memory.ofBytes (fun a => l.getD a 0)

/-- A byte space with one byte. -/
def oneByte (a : Nat) (v : Byte) : Memory := Memory.write [] a v

/-- Slaves that acknowledge `n` times. -/
def acks (n : Nat) : List Reply := List.replicate n ⟨true, 0⟩

/-- A slave that does not acknowledge. -/
def nack : Reply := ⟨false, 0⟩

/-- After INIT from reset, the chip of 2.5 present and acknowledging, the Engine's step taken. -/
def started : State :=
  { State.reset with en := true, div := 72, params := params, chip := bytes chipBytes, replies := acks 30,
                     fair := true }

/-- The start of the rows of 2.3: a quiet engine in a bus state, the clock chip selected. -/
def onBus (b : BusState) : State := { started with done := true, bus := b, sel := 0x68 }

/-- The same with a phase pending. -/
def pending (b : BusState) (p : Phase) : State := { onBus b with done := false, pend := some p }

/-- The same with a STOP pending. -/
def stopping : State := { pending .mt .stop with stopreq := true }

/-- The same, wedged. -/
def wedgedAt (p : Phase) (q : Bool) : State := { pending .mr p with wedged := true, stopreq := q }

/-- A selected slave that is not the clock chip. -/
def otherSlave : State := { onBus .mr with sel := 0x27, replies := [⟨true, 0x5C⟩] }

/-- The next state, if there is one. -/
def next? : Host.Outcome State Fault Refusal → Option State
  | .next s => some s
  | .fault _ => none
  | .refused _ => none

/-- The fault, if there is one. -/
def fault? : Host.Outcome State Fault Refusal → Option Fault
  | .next _ => none
  | .fault f => some f
  | .refused _ => none

/-- One step with this command word next. -/
def issue (w : CmdWord) (s : State) : Host.Outcome State Fault Refusal := step (placeCommand w s)

/-- The command a word decodes to. -/
def decoded (w : CmdWord) : Option Instr := decodeTableWord 24 w.toNat

/-! ## Words (spec/30_encoding.md R80 to R92; V-E1 to V-E39) -/

/-- The words of 2.1 that are no GETF or SETF. -/
def wordRows : List (CmdWord × Instr) :=
  [(0x010000, .init), (0x020000, .enable), (0x030000, .disable), (0x040000, .status), (0x100000, .start),
    (0x110000, .stop), (0x120000, .wait), (0x130000, .waitstop), (0x1400D0, .setaddr 0x68 false),
    (0x1400D1, .setaddr 0x68 true), (0x140000, .setaddr 0x00 false), (0x1400FF, .setaddr 0x7F true)] ++
  [(0x150000, .xferaddr), (0x160000, .sendbyte 0x00), (0x1600FF, .sendbyte 0xFF), (0x170000, .recv),
    (0x180000, .recvlast), (0x2000D0, .beginXfer 0x68 false), (0x2000D1, .beginXfer 0x68 true), (0x210000, .endXfer),
    (0x300013, .refresh 0x00 19), (0x301201, .refresh 0x12 1), (0x310B03, .commit 0x0B 3), (0x31FFFF, .commit 0xFF 255)]

theorem test_words_decode : wordRows.all (fun r => decoded r.1 == some r.2) = true := by decide

theorem test_words_encode : wordRows.all (fun r => encode r.2 == r.1) = true := by decide

/-- V-E30 to V-E39. -/
def illegalWords : List CmdWord :=
  [0x000000, 0x050000, 0x0F0000, 0x190000, 0x1F0000, 0x220000, 0x320000, 0x420000, 0xFF0000, 0x100001, 0x120100, 0x160100,
    0x2001D0, 0x400001, 0x403B00, 0x413B00, 0x41FF00, 0x413BFF]

theorem test_illegal_words : illegalWords.all (fun w => decoded w == none) = true := by decide

/-- V-E39, V-X1: illegal comes before every other check, also with the engine off. -/
theorem test_illegal_first :
    fault? (issue 0x413BFF State.reset) = some (.illegalCommand 0x413BFF) ∧
      fault? (issue 0x100001 State.reset) = some (.illegalCommand 0x100001) := by decide

theorem test_table_word_short_row : decodeTableWord 25 0x010000 = none := by decide

/-- The word placed by `withFetchWord` is the one the next step runs. -/
theorem test_fetch_word : next? (step (started.withFetchWord 24 0x030000)) = next? (exec .disable started) := by decide

/-! ## Terms that are not well formed (spec/20_memory.md R60, spec/44_codec_fields.md R151) -/

theorem test_ill_formed :
    wellFormed fieldTable (.refresh 0 0) = false ∧ wellFormed fieldTable (.refresh 18 2) = false ∧ wellFormed fieldTable (.refresh 255 1) = false ∧
      wellFormed fieldTable (.commit 0 20) = false ∧ wellFormed fieldTable (.setfSecTens 8) = false ∧ wellFormed fieldTable (.setfA2F 2) = false := by
  decide

theorem test_well_formed :
    wellFormed fieldTable (.refresh 18 1) = true ∧ wellFormed fieldTable (.commit 0 19) = true ∧ wellFormed fieldTable (.setfAging 255) = true := by
  decide

/-! ## The field table (spec/95_test_vectors.md 2.6): every GETF and SETF -/

/-- A row of the table of 2.6. -/
structure FieldRow where
  get : Instr
  setMax : Instr
  byte : Nat
  getWord : CmdWord
  onA5 : Byte
  on5A : Byte
  setMaxWord : CmdWord
  from00 : Byte
  setZeroWord : CmdWord
  fromFF : Byte
  faultWord : Option CmdWord

/-- spec/95_test_vectors.md 2.6, ids 0 to 9. -/
def fieldRows0 : List FieldRow :=
  [⟨.getfSecOnes, .setfSecOnes 0x0F, 0x00, 0x400000, 0x05, 0x0A, 0x41000F, 0x0F, 0x410000, 0xF0, some 0x410010⟩,
    ⟨.getfSecTens, .setfSecTens 0x07, 0x00, 0x400100, 0x02, 0x05, 0x410107, 0x70, 0x410100, 0x8F, some 0x410108⟩,
    ⟨.getfMinOnes, .setfMinOnes 0x0F, 0x01, 0x400200, 0x05, 0x0A, 0x41020F, 0x0F, 0x410200, 0xF0, some 0x410210⟩,
    ⟨.getfMinTens, .setfMinTens 0x07, 0x01, 0x400300, 0x02, 0x05, 0x410307, 0x70, 0x410300, 0x8F, some 0x410308⟩,
    ⟨.getfHrOnes, .setfHrOnes 0x0F, 0x02, 0x400400, 0x05, 0x0A, 0x41040F, 0x0F, 0x410400, 0xF0, some 0x410410⟩,
    ⟨.getfHrTens, .setfHrTens 0x03, 0x02, 0x400500, 0x02, 0x01, 0x410503, 0x30, 0x410500, 0xCF, some 0x410504⟩,
    ⟨.getfHrPm, .setfHrPm 0x01, 0x02, 0x400600, 0x01, 0x00, 0x410601, 0x20, 0x410600, 0xDF, some 0x410602⟩,
    ⟨.getfHr12, .setfHr12 0x01, 0x02, 0x400700, 0x00, 0x01, 0x410701, 0x40, 0x410700, 0xBF, some 0x410702⟩,
    ⟨.getfDow, .setfDow 0x07, 0x03, 0x400800, 0x05, 0x02, 0x410807, 0x07, 0x410800, 0xF8, some 0x410808⟩,
    ⟨.getfDateOnes, .setfDateOnes 0x0F, 0x04, 0x400900, 0x05, 0x0A, 0x41090F, 0x0F, 0x410900, 0xF0, some 0x410910⟩]

/-- spec/95_test_vectors.md 2.6, ids 10 to 19. -/
def fieldRows1 : List FieldRow :=
  [⟨.getfDateTens, .setfDateTens 0x03, 0x04, 0x400A00, 0x02, 0x01, 0x410A03, 0x30, 0x410A00, 0xCF, some 0x410A04⟩,
    ⟨.getfMonOnes, .setfMonOnes 0x0F, 0x05, 0x400B00, 0x05, 0x0A, 0x410B0F, 0x0F, 0x410B00, 0xF0, some 0x410B10⟩,
    ⟨.getfMonTens, .setfMonTens 0x01, 0x05, 0x400C00, 0x00, 0x01, 0x410C01, 0x10, 0x410C00, 0xEF, some 0x410C02⟩,
    ⟨.getfCentury, .setfCentury 0x01, 0x05, 0x400D00, 0x01, 0x00, 0x410D01, 0x80, 0x410D00, 0x7F, some 0x410D02⟩,
    ⟨.getfYrOnes, .setfYrOnes 0x0F, 0x06, 0x400E00, 0x05, 0x0A, 0x410E0F, 0x0F, 0x410E00, 0xF0, some 0x410E10⟩,
    ⟨.getfYrTens, .setfYrTens 0x0F, 0x06, 0x400F00, 0x0A, 0x05, 0x410F0F, 0xF0, 0x410F00, 0x0F, some 0x410F10⟩,
    ⟨.getfA1SecOnes, .setfA1SecOnes 0x0F, 0x07, 0x401000, 0x05, 0x0A, 0x41100F, 0x0F, 0x411000, 0xF0, some 0x411010⟩,
    ⟨.getfA1SecTens, .setfA1SecTens 0x07, 0x07, 0x401100, 0x02, 0x05, 0x411107, 0x70, 0x411100, 0x8F, some 0x411108⟩,
    ⟨.getfA1M1, .setfA1M1 0x01, 0x07, 0x401200, 0x01, 0x00, 0x411201, 0x80, 0x411200, 0x7F, some 0x411202⟩,
    ⟨.getfA1MinOnes, .setfA1MinOnes 0x0F, 0x08, 0x401300, 0x05, 0x0A, 0x41130F, 0x0F, 0x411300, 0xF0, some 0x411310⟩]

/-- spec/95_test_vectors.md 2.6, ids 20 to 29. -/
def fieldRows2 : List FieldRow :=
  [⟨.getfA1MinTens, .setfA1MinTens 0x07, 0x08, 0x401400, 0x02, 0x05, 0x411407, 0x70, 0x411400, 0x8F, some 0x411408⟩,
    ⟨.getfA1M2, .setfA1M2 0x01, 0x08, 0x401500, 0x01, 0x00, 0x411501, 0x80, 0x411500, 0x7F, some 0x411502⟩,
    ⟨.getfA1HrOnes, .setfA1HrOnes 0x0F, 0x09, 0x401600, 0x05, 0x0A, 0x41160F, 0x0F, 0x411600, 0xF0, some 0x411610⟩,
    ⟨.getfA1HrTens, .setfA1HrTens 0x03, 0x09, 0x401700, 0x02, 0x01, 0x411703, 0x30, 0x411700, 0xCF, some 0x411704⟩,
    ⟨.getfA1HrPm, .setfA1HrPm 0x01, 0x09, 0x401800, 0x01, 0x00, 0x411801, 0x20, 0x411800, 0xDF, some 0x411802⟩,
    ⟨.getfA1Hr12, .setfA1Hr12 0x01, 0x09, 0x401900, 0x00, 0x01, 0x411901, 0x40, 0x411900, 0xBF, some 0x411902⟩,
    ⟨.getfA1M3, .setfA1M3 0x01, 0x09, 0x401A00, 0x01, 0x00, 0x411A01, 0x80, 0x411A00, 0x7F, some 0x411A02⟩,
    ⟨.getfA1DdOnes, .setfA1DdOnes 0x0F, 0x0A, 0x401B00, 0x05, 0x0A, 0x411B0F, 0x0F, 0x411B00, 0xF0, some 0x411B10⟩,
    ⟨.getfA1DdTens, .setfA1DdTens 0x03, 0x0A, 0x401C00, 0x02, 0x01, 0x411C03, 0x30, 0x411C00, 0xCF, some 0x411C04⟩,
    ⟨.getfA1Dydt, .setfA1Dydt 0x01, 0x0A, 0x401D00, 0x00, 0x01, 0x411D01, 0x40, 0x411D00, 0xBF, some 0x411D02⟩]

/-- spec/95_test_vectors.md 2.6, ids 30 to 39. -/
def fieldRows3 : List FieldRow :=
  [⟨.getfA1M4, .setfA1M4 0x01, 0x0A, 0x401E00, 0x01, 0x00, 0x411E01, 0x80, 0x411E00, 0x7F, some 0x411E02⟩,
    ⟨.getfA2MinOnes, .setfA2MinOnes 0x0F, 0x0B, 0x401F00, 0x05, 0x0A, 0x411F0F, 0x0F, 0x411F00, 0xF0, some 0x411F10⟩,
    ⟨.getfA2MinTens, .setfA2MinTens 0x07, 0x0B, 0x402000, 0x02, 0x05, 0x412007, 0x70, 0x412000, 0x8F, some 0x412008⟩,
    ⟨.getfA2M2, .setfA2M2 0x01, 0x0B, 0x402100, 0x01, 0x00, 0x412101, 0x80, 0x412100, 0x7F, some 0x412102⟩,
    ⟨.getfA2HrOnes, .setfA2HrOnes 0x0F, 0x0C, 0x402200, 0x05, 0x0A, 0x41220F, 0x0F, 0x412200, 0xF0, some 0x412210⟩,
    ⟨.getfA2HrTens, .setfA2HrTens 0x03, 0x0C, 0x402300, 0x02, 0x01, 0x412303, 0x30, 0x412300, 0xCF, some 0x412304⟩,
    ⟨.getfA2HrPm, .setfA2HrPm 0x01, 0x0C, 0x402400, 0x01, 0x00, 0x412401, 0x20, 0x412400, 0xDF, some 0x412402⟩,
    ⟨.getfA2Hr12, .setfA2Hr12 0x01, 0x0C, 0x402500, 0x00, 0x01, 0x412501, 0x40, 0x412500, 0xBF, some 0x412502⟩,
    ⟨.getfA2M3, .setfA2M3 0x01, 0x0C, 0x402600, 0x01, 0x00, 0x412601, 0x80, 0x412600, 0x7F, some 0x412602⟩,
    ⟨.getfA2DdOnes, .setfA2DdOnes 0x0F, 0x0D, 0x402700, 0x05, 0x0A, 0x41270F, 0x0F, 0x412700, 0xF0, some 0x412710⟩]

/-- spec/95_test_vectors.md 2.6, ids 40 to 49. -/
def fieldRows4 : List FieldRow :=
  [⟨.getfA2DdTens, .setfA2DdTens 0x03, 0x0D, 0x402800, 0x02, 0x01, 0x412803, 0x30, 0x412800, 0xCF, some 0x412804⟩,
    ⟨.getfA2Dydt, .setfA2Dydt 0x01, 0x0D, 0x402900, 0x00, 0x01, 0x412901, 0x40, 0x412900, 0xBF, some 0x412902⟩,
    ⟨.getfA2M4, .setfA2M4 0x01, 0x0D, 0x402A00, 0x01, 0x00, 0x412A01, 0x80, 0x412A00, 0x7F, some 0x412A02⟩,
    ⟨.getfA1IE, .setfA1IE 0x01, 0x0E, 0x402B00, 0x01, 0x00, 0x412B01, 0x01, 0x412B00, 0xFE, some 0x412B02⟩,
    ⟨.getfA2IE, .setfA2IE 0x01, 0x0E, 0x402C00, 0x00, 0x01, 0x412C01, 0x02, 0x412C00, 0xFD, some 0x412C02⟩,
    ⟨.getfIntcn, .setfIntcn 0x01, 0x0E, 0x402D00, 0x01, 0x00, 0x412D01, 0x04, 0x412D00, 0xFB, some 0x412D02⟩,
    ⟨.getfRS1, .setfRS1 0x01, 0x0E, 0x402E00, 0x00, 0x01, 0x412E01, 0x08, 0x412E00, 0xF7, some 0x412E02⟩,
    ⟨.getfRS2, .setfRS2 0x01, 0x0E, 0x402F00, 0x00, 0x01, 0x412F01, 0x10, 0x412F00, 0xEF, some 0x412F02⟩,
    ⟨.getfConv, .setfConv 0x01, 0x0E, 0x403000, 0x01, 0x00, 0x413001, 0x20, 0x413000, 0xDF, some 0x413002⟩,
    ⟨.getfBbsqw, .setfBbsqw 0x01, 0x0E, 0x403100, 0x00, 0x01, 0x413101, 0x40, 0x413100, 0xBF, some 0x413102⟩]

/-- spec/95_test_vectors.md 2.6, ids 50 to 58. -/
def fieldRows5 : List FieldRow :=
  [⟨.getfEosc, .setfEosc 0x01, 0x0E, 0x403200, 0x01, 0x00, 0x413201, 0x80, 0x413200, 0x7F, some 0x413202⟩,
    ⟨.getfA1F, .setfA1F 0x01, 0x0F, 0x403300, 0x01, 0x00, 0x413301, 0x01, 0x413300, 0xFE, some 0x413302⟩,
    ⟨.getfA2F, .setfA2F 0x01, 0x0F, 0x403400, 0x00, 0x01, 0x413401, 0x02, 0x413400, 0xFD, some 0x413402⟩,
    ⟨.getfBsy, .setfBsy 0x01, 0x0F, 0x403500, 0x01, 0x00, 0x413501, 0x04, 0x413500, 0xFB, some 0x413502⟩,
    ⟨.getfEN32K, .setfEN32K 0x01, 0x0F, 0x403600, 0x00, 0x01, 0x413601, 0x08, 0x413600, 0xF7, some 0x413602⟩,
    ⟨.getfOsf, .setfOsf 0x01, 0x0F, 0x403700, 0x01, 0x00, 0x413701, 0x80, 0x413700, 0x7F, some 0x413702⟩,
    ⟨.getfAging, .setfAging 0xFF, 0x10, 0x403800, 0xA5, 0x5A, 0x4138FF, 0xFF, 0x413800, 0x00, none⟩,
    ⟨.getfTempInt, .setfTempInt 0xFF, 0x11, 0x403900, 0xA5, 0x5A, 0x4139FF, 0xFF, 0x413900, 0x00, none⟩,
    ⟨.getfTempFrac, .setfTempFrac 0x03, 0x12, 0x403A00, 0x02, 0x01, 0x413A03, 0xC0, 0x413A00, 0x3F, some 0x413A04⟩]

/-- The table of 2.6. -/
def fieldRows : List FieldRow := fieldRows0 ++ fieldRows1 ++ fieldRows2 ++ fieldRows3 ++ fieldRows4 ++ fieldRows5

/-- The response to a word with this image. -/
def response (w : CmdWord) (img : Memory) : Option Byte := (next? (issue w { State.reset with img := img })).bind State.rsp

/-- The image byte after a word with this image. -/
def byteAfter (w : CmdWord) (a : Nat) (img : Memory) : Option Byte :=
  (next? (issue w { State.reset with img := img })).map (fun t => t.img.read a)

theorem test_field_words_decode :
    fieldRows.all (fun r => decoded r.getWord == some r.get && decoded r.setMaxWord == some r.setMax) = true := by decide

theorem test_getf_vectors :
    fieldRows.all (fun r => response r.getWord (oneByte r.byte 0xA5) == some r.onA5 &&
      response r.getWord (oneByte r.byte 0x5A) == some r.on5A) = true := by decide

theorem test_setf_vectors :
    fieldRows.all (fun r => byteAfter r.setMaxWord r.byte [] == some r.from00 &&
      byteAfter r.setZeroWord r.byte (oneByte r.byte 0xFF) == some r.fromFF) = true := by decide

theorem test_setf_faults :
    fieldRows.all (fun r => match r.faultWord with
      | some w => (fault? (issue w State.reset)).isSome && (decoded w).isSome
      | none => true) = true := by decide

/-- V-F2: bit 7 of the minutes byte, which is no field, is kept. -/
theorem test_setbcd : (next? (hostIssues (setBcd .minTens .minOnes 34) { State.reset with img := oneByte 1 0x80 })).map
    (fun t => t.img.read 1) = some 0xB4 := by decide

/-- V-F3, V-F4, V-F5. -/
theorem test_hours :
    readHours fieldTable .hr12 .hrPm .hrTens .hrOnes (oneByte 2 0x23) = .hour24 23 ∧
      readHours fieldTable .hr12 .hrPm .hrTens .hrOnes (oneByte 2 0x72) = .hour12 12 true ∧
      readHours fieldTable .hr12 .hrPm .hrTens .hrOnes (oneByte 2 0x45) = .hour12 5 false := by decide

/-- The byte of V-F13 as alarm 2's day, and as alarm 1's; a BCD date in both (R163, R166). -/
theorem test_date_or_day :
    alarm2DateOrDay fieldTable (oneByte 0x0D 0x41) = .dayOfWeek 1 ∧ alarm1DateOrDay fieldTable (oneByte 0x0A 0xC7) = .dayOfWeek 7 ∧
      alarm2DateOrDay fieldTable (oneByte 0x0D 0x31) = .date 31 ∧ alarm1DateOrDay fieldTable (oneByte 0x0A 0x89) = .date 9 := by
  decide

/-- Parameters with another field table: SEC_ONES (id 0) in bits 7:6 of byte 0x12. -/
def otherTable : Params := { params with ft := fieldTable.set 0 ⟨0x12, 6, 2⟩ }

/-- R152: another table changes what a field is and no rule. -/
theorem test_other_table :
    paramsOk otherTable = true ∧
      (next? (exec .getfSecOnes { started with params := otherTable, img := oneByte 0x12 0xC0 })).bind State.rsp = some 3 ∧
      (next? (exec (.setfSecOnes 1) { started with params := otherTable, img := oneByte 0x12 0xFF })).map
        (fun t => t.img.read 0x12) = some 0x7F ∧
      fault? (exec (.setfSecOnes 4) { started with params := otherTable }) = some (.fieldValueError .secOnes 4) := by decide

/-- V-F16 to V-F20: 25.25, -0.25, -24.25, -128, 127.75. -/
theorem test_temperature :
    temperatureQuarters fieldTable ((oneByte 0x11 0x19).write 0x12 0x40) = 101 ∧
      temperatureQuarters fieldTable ((oneByte 0x11 0xFF).write 0x12 0xC0) = -1 ∧
      temperatureQuarters fieldTable ((oneByte 0x11 0xE7).write 0x12 0xC0) = -97 ∧
      temperatureQuarters fieldTable ((oneByte 0x11 0x80).write 0x12 0x3F) = -512 ∧
      temperatureQuarters fieldTable ((oneByte 0x11 0x7F).write 0x12 0xC0) = 511 := by decide

/-! ## Control commands (V-C) -/

theorem test_init : (next? (issue 0x010000 { State.reset with params := params })).map (fun t => (t.en, t.div, t.rsp)) =
    some (true, 72, some 0) := by decide

theorem test_init_busy : fault? (exec .init (onBus .mt)) = some (.busyViolation .init none) := by decide

theorem test_status_disabled : fault? (issue 0x040000 State.reset) = some (.disabled .status) := by decide

theorem test_status : (next? (exec .status started)).bind State.rsp = some 0xF8 := by decide

/-! ## Phase commands (V-P) -/

/-- V-P1, V-P13: START, then the Engine. -/
theorem test_start_first : (next? (exec .start (onBus .idle))).map (fun t => (t.pend, t.done, (engineStep t).status)) =
    some (some .start, false, 0x08) := by decide

theorem test_start_repeated : (next? (exec .start (onBus .mt))).map (fun t => ((engineStep t).status, (engineStep t).bus)) =
    some (0x10, .started) := by decide

/-- V-P8, and an address nobody owns. -/
theorem test_xferaddr_read :
    (next? (exec .xferaddr { onBus .started with data := 0xD1 })).map
      (fun t => ((engineStep t).status, (engineStep t).bus, (engineStep t).sel)) = some (0x40, .mr, 0x68) := by decide

theorem test_xferaddr_nack :
    (next? (exec .xferaddr { onBus .started with data := 0xA0, replies := [nack] })).map
      (fun t => ((engineStep t).status, (engineStep t).bus, (engineStep t).sel)) = some (0x20, .nacked, 0x68) := by decide

/-- V-P15. -/
theorem test_sendbyte : (next? (exec (.sendbyte 0x0E) (onBus .mt))).map
    (fun t => (t.data, t.acken, (engineStep t).status, (engineStep t).bus)) = some (0x0E, false, 0x28, .mt) := by decide

/-- V-P22, V-P23. -/
theorem test_recv : (next? (exec .recv (onBus .mr))).map (fun t => (t.rsp, t.status, t.bus, t.acken, t.done)) =
    some (some 0x56, 0x50, .mr, true, true) := by decide

theorem test_recvlast : (next? (exec .recvlast (onBus .mr))).map (fun t => (t.rsp, t.status, t.bus, t.acken, t.done)) =
    some (some 0x56, 0x58, .mrLast, false, true) := by decide

/-- V-P24: STOP in MR wedges. -/
theorem test_stop_wedges : (next? (exec .stop (onBus .mr))).map (fun t => (t.pend, t.stopreq, t.wedged)) =
    some (some .stop, true, true) := by decide

/-- V-P45, V-X5: busy before the order of phases. -/
theorem test_busy_first : fault? (exec .stop (pending .idle .start)) = some (.busyViolation .stop (some .start)) := by decide

/-- V-P41. -/
theorem test_setaddr : (next? (exec (.setaddr 0x7F true) started)).map State.data = some 0xFF ∧
    (next? (exec (.setaddr 0x68 false) started)).map State.data = some 0xD0 := by decide

/-! ## Wrappers and ranges (V-W, V-R) -/

/-- V-W1. -/
theorem test_begin : (next? (exec (.beginXfer 0x68 false) started)).map (fun t => (t.bus, t.status, t.data, t.sel)) =
    some (.mt, 0x18, 0xD0, 0x68) := by decide

/-- V-W7. -/
theorem test_end : (next? (exec .endXfer (onBus .mrLast))).map (fun t => (t.bus, t.status, t.stopreq, t.done)) =
    some (.idle, 0xF8, false, false) := by decide

/-- V-R1. -/
theorem test_refresh : (next? (issue 0x300003 started)).map
    (fun t => (t.img.read 0, t.img.read 1, t.img.read 2, t.img.read 3, t.ptr, t.data)) =
      some (0x56, 0x34, 0x12, 0, 0x03, 0x12) := by decide

/-- V-R1, the bus column, the latest phase first. -/
theorem test_refresh_bus : (next? (issue 0x300003 started)).map State.history =
    some [.stop, .received 0x12 false, .received 0x34 true, .received 0x56 true, .addr 0x68 true true, .start true,
      .sent 0 true, .addr 0x68 false true, .start false] := by decide

/-- V-R22: the pointer byte answered NACK. -/
theorem test_refresh_nacked_pointer :
    (next? (exec (.refresh 0 2) { started with
      chip := bytes [0x20, 0x21, 0x22, 0x23, 0x24, 0x25, 0x26], ptr := 5, replies := [⟨true, 0⟩, nack, ⟨true, 0⟩] })).map
      (fun t => (t.img.read 0, t.img.read 1, t.ptr)) = some (0x25, 0x26, 0x07) := by decide

/-- R58, R61: the chip changes register 1 between the two bytes of a burst. -/
theorem test_refresh_not_atomic :
    (next? (exec (.refresh 0 2) { started with
      agenda := List.replicate 6 .engine ++ [.chipTime 0 0x99, .chipTime 1 0x35] })).map
      (fun t => (t.img.read 0, t.img.read 1)) = some (0x56, 0x35) := by decide

/-- V-R6, with other bytes in the image than the chip holds. -/
theorem test_commit : (next? (issue 0x310B03 { started with
      img := ((oneByte 0x0B 0x31).write 0x0C 0x07).write 0x0D 0x81 })).map
    (fun t => (t.chip.read 0x0B, t.chip.read 0x0C, t.chip.read 0x0D, t.ptr, t.data)) =
      some (0x31, 0x07, 0x81, 0x0E, 0x81) := by decide

/-- V-R24: the first of two data bytes answered NACK. -/
theorem test_commit_nacked : (next? (exec (.commit 0 2) { started with
      img := bytes [1, 2], replies := acks 2 ++ [nack] })).map
    (fun t => (t.pend, t.bus, t.status, t.data, t.wedged, t.chip.read 0)) =
      some (some .tx, .nacked, 0x30, 0x02, true, 0x56) := by decide

/-- V-R11, V-R14, V-R18. -/
theorem test_range_errors :
    fault? (issue 0x300014 started) = some (.rangeError 0 20) ∧ fault? (issue 0x30FF01 started) = some (.rangeError 255 1) ∧
      fault? (issue 0x310000 State.reset) = some (.rangeError 0 0) := by decide

/-! ## Reset (spec/10_state.md R40) -/

theorem test_rst_drops_command :
    (next? (step { wedgedAt .stop true with todo := [.awaitStop], agenda := [.rst true] })).map
      (fun t => (t.todo, t.pend, t.stopreq, t.wedged, t.chip == bytes chipBytes)) = some ([], none, false, false, true) := by
  decide

/-- R184, the fifth hang: the Engine's step is never taken, and the pending phase stays (R120). -/
theorem test_unfair_engine :
    (next? (exec .recv { onBus .mr with fair := false })).map (fun t => (t.pend, t.wedged, t.cmdReady)) =
        some (some .rxAck, false, false) ∧
      next? (step { pending .mt .tx with fair := false }) = some { pending .mt .tx with fair := false } := by decide

/-- V-R1 with idle moments in the burst: the REFRESH goes on where it was. -/
theorem test_refresh_resumes :
    (next? (Host.Core.run Sys2Proof.core 3 { started with agenda := [.cmd 0x300003, .idle, .engine, .idle] })).map
      (fun t => (t.cmdReady, t.pend)) = some (false, some .addr) ∧
    (next? (Host.Core.run Sys2Proof.core 5 { started with agenda := [.cmd 0x300003, .idle, .engine, .idle] })).map
      (fun t => (t.img.read 0, t.img.read 1, t.img.read 2, t.rsp, t.bus)) = some (0x56, 0x34, 0x12, some 0, .idle) := by decide

/-! ## Witnesses: for every obligation with hypotheses, states that meet them -/

/-- IllegalCommandExactlyForIllegalWords: each clause of R90, and words on the other side of each. -/
theorem test_witness_illegal :
    (placeCommand 0x413B00 started).todo = [] ∧ (placeCommand 0x413B00 started).agenda = .cmd 0x413B00 :: [] ∧
      IllegalWord 0x050000 ∧ IllegalWord 0x100001 ∧ IllegalWord 0x160100 ∧ IllegalWord 0x400001 ∧ IllegalWord 0x413BFF :=
  ⟨rfl, rfl, .inl (by decide), .inr (.inl (by decide)), .inr (.inr (.inl (by decide))),
    .inr (.inr (.inr (.inl (by decide)))), .inr (.inr (.inr (.inr (by decide))))⟩

/-- The same, legal words beside the limits of the clauses. -/
theorem test_witness_legal : ¬ IllegalWord 0x413AFF ∧ ¬ IllegalWord 0x31FFFF ∧ ¬ IllegalWord 0x010000 := by
  unfold IllegalWord; decide

/-- EncodeOfDecode, StepRunsTheDecodedCommand. -/
theorem test_witness_step :
    (placeCommand 0x1400D1 started).todo = [] ∧ (placeCommand 0x1400D1 started).agenda = .cmd 0x1400D1 :: [] ∧
      decode 0x1400D1 = .ok (.setaddr 0x68 true) := ⟨rfl, rfl, rfl⟩

/-- A command in progress with the host's next word waiting. -/
def blockedWithWord : State := { wedgedAt .stop true with done := false, todo := [.awaitDone], agenda := [.cmd 0x010000] }

/-- NoCommandWhileOneIsInProgress. -/
theorem test_witness_in_progress :
    blockedWithWord.todo ≠ [] ∧ blockedWithWord.agenda = .cmd 0x010000 :: [] ∧
      next? (step blockedWithWord) = some blockedWithWord := by decide

/-- RstInputResetsTheBlockOnly: with and without the slaves, a command in progress or not. -/
theorem test_witness_rst :
    ({ started with agenda := [.rst true] } : State).agenda = .rst true :: [] ∧
      ({ blockedWithWord with agenda := [.rst false] } : State).agenda = .rst false :: [] := ⟨rfl, rfl⟩

/-- InitLoadsTheDividerAndEnables, DisableClearsEnWhenIdle: the idle case and each of the three busy ones. -/
theorem test_witness_control :
    (started.pend = none ∧ started.stopreq = false ∧ started.bus = .idle) ∧ (pending .idle .start).pend ≠ none ∧
      stopping.stopreq = true ∧ (onBus .mrLast).bus ≠ .idle := by decide

/-- StatusReadsTheStatusField. -/
theorem test_witness_status :
    (started.en = true ∧ started.pend = none) ∧ ((pending .mt .tx).en = true ∧ (pending .mt .tx).pend ≠ none) ∧
      State.reset.en = false := by decide

/-- The phase commands: the two faults of the precondition, and a quiet engine in each bus state. -/
theorem test_witness_precheck :
    State.reset.en = false ∧ ((pending .idle .start).en = true ∧ (pending .idle .start).pend ≠ none) ∧
      (stopping.en = true ∧ stopping.stopreq = true) := by decide

theorem test_witness_bus_states (b : BusState) :
    (onBus b).en = true ∧ (onBus b).pend = none ∧ (onBus b).stopreq = false ∧ (onBus b).bus = b := ⟨rfl, rfl, rfl, rfl⟩

/-- RecvReturnsTheChipByte, RecvlastReturnsTheChipByte: the pointer at both ends of the map. -/
theorem test_witness_recv :
    (onBus .mr).quiet = true ∧ (onBus .mr).served = true ∧ (onBus .mr).bus = .mr ∧
      (onBus .mr).sel = (onBus .mr).params.addrClock ∧ (onBus .mr).ptr.toNat ≤ 0x12 ∧
      ({ onBus .mr with ptr := 0x12 } : State).ptr.toNat ≤ 0x12 := by decide

/-- ReceiveFromAnotherSlave. -/
theorem test_witness_other_slave :
    otherSlave.quiet = true ∧ otherSlave.served = true ∧ otherSlave.bus = .mr ∧
      otherSlave.sel ≠ otherSlave.params.addrClock ∧ otherSlave.replies = ⟨true, 0x5C⟩ :: [] := by decide

/-- WaitCompletesWithThePhase, WaitstopCompletesWithTheStop: the three cases of each. -/
theorem test_witness_waits :
    State.reset.en = false ∧ ((onBus .mt).en = true ∧ (onBus .mt).done = true ∧ (onBus .mt).stopreq = false) ∧
      ((pending .mt .tx).en = true ∧ (pending .mt .tx).done = false ∧ (pending .mt .tx).served = true ∧
        (engineStep (pending .mt .tx)).done = true) ∧
      (stopping.en = true ∧ stopping.stopreq = true ∧ stopping.served = true ∧ (engineStep stopping).stopreq = false) := by
  decide

/-- EngineStepsExactlyWhenReady: the agenda with the Engine next and the empty one, the ways of having no step, and a step. -/
theorem test_witness_engine_ready :
    (({ started with agenda := [.engine] } : State).todo = [] ∧
      ({ started with agenda := [.engine] } : State).agenda = .engine :: []) ∧
      ((pending .mt .tx).todo = [] ∧ (pending .mt .tx).agenda = [] ∧ (pending .mt .tx).fair = true ∧
        ({ pending .mt .tx with fair := false } : State).fair = false) ∧
      State.reset.en = false ∧ started.pend = none ∧ (wedgedAt .stop true).wedged = true ∧
      ((pending .mt .tx).en = true ∧ (pending .mt .tx).pend ≠ none ∧ (pending .mt .tx).wedged = false) := by decide

/-- The completions of START, STOP and the receive phases. -/
theorem test_witness_completions :
    ((pending .idle .start).en = true ∧ (pending .idle .start).wedged = false ∧ (pending .idle .start).pend = some .start) ∧
      (stopping.en = true ∧ stopping.wedged = false ∧ stopping.pend = some .stop) ∧
      (pending .mr .rxAck).pend = some .rxAck ∧ (pending .mr .rxNack).pend = some .rxNack := by decide

/-- The same slave with `NACK_COMPLETES` false, and a reply. -/
def answering (p : Phase) (r : Reply) (nackCompletes : Bool) : State :=
  { pending .mt p with bus := if p = .addr then .started else .mt, replies := [r],
                       params := { params with nackCompletes := nackCompletes } }

/-- EngineCompletesAddress, EngineCompletesTransmit: acknowledged, not acknowledged, and with `NACK_COMPLETES` false. -/
theorem test_witness_answers (p : Phase) (k n : Bool) :
    (answering p ⟨k, 0⟩ n).en = true ∧ (answering p ⟨k, 0⟩ n).wedged = false ∧ (answering p ⟨k, 0⟩ n).pend = some p ∧
      addrAnswer (answering p ⟨k, 0⟩ n) 0x68 false = k ∧ writeAnswer (answering p ⟨k, 0⟩ n) 0x0E = k ∧
      (answering p ⟨k, 0⟩ n).params.nackCompletes = n := ⟨rfl, rfl, rfl, rfl, rfl, rfl⟩

/-- ClockChipTakesSentBytes: the pointer byte, a data byte with the pointer at each end, another slave, a NACK. -/
theorem test_witness_chip :
    ((pending .mt .tx).sel = (pending .mt .tx).params.addrClock ∧
      writeAnswer (pending .mt .tx) (pending .mt .tx).data = true) ∧
      ({ pending .mt .tx with chipPtrNext := true } : State).chipPtrNext = true ∧
      ((pending .mt .tx).chipPtrNext = false ∧ (pending .mt .tx).ptr.toNat ≤ 0x12 ∧
        ({ pending .mt .tx with ptr := 0x12 } : State).ptr.toNat ≤ 0x12) ∧
      otherSlave.sel ≠ otherSlave.params.addrClock ∧
      writeAnswer (answering .tx nack true) (answering .tx nack true).data = false := by decide

/-- ChipTimeChangesOneChipRegister: the last register. -/
theorem test_witness_chip_time :
    ({ started with agenda := [.chipTime 18 0x40] } : State).todo = [] ∧
      ({ started with agenda := [.chipTime 18 0x40] } : State).agenda = .chipTime 18 0x40 :: [] := ⟨rfl, rfl⟩

/-- WedgedBusStaysWedged, OnlyResetClearsWedged: a wedged bus and a move of the host, and the reset with the slaves. -/
theorem test_witness_wedged :
    (blockedWithWord.wedged = true ∧ blockedWithWord.pend = some .stop ∧
      (∀ (b : Bool) (rest : List Event), blockedWithWord.agenda ≠ .rst b :: rest) ∧
      (next? (step blockedWithWord)).isSome = true) ∧
      (next? (step { blockedWithWord with agenda := [.rst true] })).map State.wedged = some false := by
  refine ⟨⟨rfl, rfl, ?_, by decide⟩, by decide⟩
  intro b rest h
  cases h

/-- The hangs: WAIT with nothing pending, on a wedged bus, with an Engine that takes no step; WAITSTOP on a wedged bus and with
such an Engine; WAIT after a STOP; a receive after a NACK. -/
theorem test_witness_hangs :
    (started.en = true ∧ started.done = false ∧ started.settled = true ∧ started.pend = none) ∧
      ((wedgedAt .stop true).en = true ∧ (wedgedAt .stop true).done = false ∧ (wedgedAt .stop true).settled = true ∧
        (wedgedAt .stop true).stopreq = true ∧ (wedgedAt .stop true).wedged = true) ∧
      (({ stopping with fair := false } : State).en = true ∧ ({ stopping with fair := false } : State).settled = true ∧
        ({ stopping with fair := false } : State).done = false ∧ ({ stopping with fair := false } : State).stopreq = true ∧
        ({ stopping with fair := false } : State).fair = false) ∧
      (stopping.en = true ∧ stopping.wedged = false ∧ stopping.done = false ∧ stopping.served = true ∧
        stopping.pend = some .stop) ∧
      ((onBus .nacked).quiet = true ∧ (onBus .nacked).bus = .nacked ∧ (onBus .nacked).settled = true) := by decide

/-- A blocked WAIT and three idle moments. -/
def idleWait : State := { pending .mt .tx with todo := [.awaitDone], agenda := [.idle, .idle, .idle, .engine] }

/-- The same with the Engine next: a WAIT; a RECV; a WAITSTOP. -/
def resumable (s : State) (todo : List Micro) : State := { s with todo := todo, agenda := [.engine, .idle] }

/-- CommandInProgressOutlastsIdleMomentsAndResumes: idle moments; each of the three commands with the Engine next; a BEGIN that
an idle moment blocked, in its first and in its second await. -/
theorem test_witness_in_progress_resumes :
    (idleWait.todo ≠ [] ∧ idleWait.rsp = none ∧ idleWait.agenda = List.replicate 3 .idle ++ [.engine]) ∧
      ((resumable (pending .mt .tx) [.awaitDone]).agenda = .engine :: [.idle] ∧
        (resumable (pending .mt .tx) [.awaitDone]).done = false ∧
        (engineStep (resumable (pending .mt .tx) [.awaitDone])).done = true) ∧
      ((resumable (pending .mr .rxAck) [.awaitDone, .respondData]).done = false ∧
        (engineStep (resumable (pending .mr .rxAck) [.awaitDone, .respondData])).done = true) ∧
      ((resumable stopping [.awaitStop]).stopreq = true ∧ (engineStep (resumable stopping [.awaitStop])).stopreq = false) ∧
      (interrupts [.engine] = false ∧
        (next? (exec (.beginXfer 0x68 false) { started with agenda := [.idle, .engine] })).map
          (fun t => (t.cmdReady, t.agenda)) = some (false, [.idle, .engine]) ∧
        (next? (exec (.beginXfer 0x68 false) { started with agenda := [.engine, .idle] })).map
          (fun t => (t.cmdReady, t.agenda)) = some (false, [.idle])) := by decide

/-- BeginCompletesTheAddressPhase: from each bus state of the rule, acknowledged and not. -/
theorem test_witness_begin :
    (started.readyToStart = true ∧ started.served = true ∧ started.params.nackCompletes = true ∧
      started.replies = ⟨true, 0⟩ :: acks 29) ∧
      (onBus .mt).readyToStart = true ∧ (onBus .mrLast).readyToStart = true ∧ (onBus .nacked).readyToStart = true ∧
      ({ started with replies := [nack] } : State).replies = nack :: [] ∧
      (({ started with params := { params with nackCompletes := false } } : State).readyToStart = true ∧
        ({ started with params := { params with nackCompletes := false } } : State).served = true ∧
        ({ started with params := { params with nackCompletes := false } } : State).replies = ⟨true, 0⟩ :: acks 29) := by decide

/-- EndCompletesTheStop, WrappersHangInMasterReceiver. -/
theorem test_witness_end :
    ((onBus .mt).quiet = true ∧ (onBus .mt).served = true ∧ (onBus .mt).bus = .mt) ∧ (onBus .mrLast).quiet = true ∧
      (onBus .nacked).quiet = true ∧
      ((onBus .mr).quiet = true ∧ (onBus .mr).settled = true ∧ (onBus .mr).bus = .mr) := by decide

/-- WrappersAreTheirExpansions: an expansion that completes, one that blocks, and one that faults. -/
theorem test_witness_expansion :
    (next? (hostIssues [.start, .wait, .setaddr 0x68 false, .xferaddr, .wait] started)).map State.cmdReady = some true ∧
      (next? (hostIssues [.stop, .waitstop] (onBus .mr))).map State.cmdReady = some false ∧
      fault? (hostIssues [.stop, .waitstop] started) = some (.phaseOrder .stop .idle) := by decide

/-- CommitIsItsExpansion: the same three cases. -/
theorem test_witness_commit_expansion :
    validRange 0x12 1 = true ∧ validRange 0 2 = true ∧
      (next? (hostIssues (commitCommands started 0x12 1) started)).map State.cmdReady = some true ∧
      (next? (hostIssues (commitCommands started 0 2) { started with replies := [nack] })).map State.cmdReady = some false ∧
      fault? (hostIssues (commitCommands State.reset 0 2) State.reset) = some (.disabled .start) := by decide

/-- The range commands: the smallest and the largest range, and enough acknowledgements. -/
theorem test_witness_ranges :
    validRange 0 19 = true ∧ validRange 18 1 = true ∧ started.readyToStart = true ∧ started.served = true ∧
      started.acksNext 3 = true ∧ started.acksNext (5 + (19 : Byte).toNat) = true ∧ started.acksNext 6 = true ∧
      started.acksNext (2 + (19 : Byte).toNat) = true ∧ fieldDesc started.params.ft .a2F = ⟨0x0F, 1, 1⟩ := by decide

/-- RangeCommandsHangWithoutTheChip: with `NACK_COMPLETES` true and false. -/
theorem test_witness_no_chip (k : Bool) :
    ({ started with replies := [nack], params := { params with nackCompletes := k } } : State).readyToStart = true ∧
      ({ started with replies := [nack], params := { params with nackCompletes := k } } : State).served = true ∧
      ({ started with replies := [nack], params := { params with nackCompletes := k } } : State).replies = nack :: [] ∧
      ({ started with replies := [nack], params := { params with nackCompletes := k } } : State).params.nackCompletes = k ∧
      nack.ack = false := ⟨rfl, rfl, rfl, rfl, rfl⟩

/-- RefreshAfterNackedPointerReadsFromTheOldPointer, CommitWithLastByteNackedCompletes (one data byte). -/
theorem test_witness_unnoticed_nack :
    started.ptr.toNat ≤ 0x12 ∧
      ({ started with replies := [⟨true, 0⟩, nack, ⟨true, 0⟩] } : State).replies = ⟨true, 0⟩ :: nack :: ⟨true, 0⟩ :: [] ∧
      ({ started with replies := acks 2 ++ [nack] } : State).replies = acks 2 ++ nack :: [] ∧
      (acks 2).length = 1 + (1 : Byte).toNat ∧ (acks 2).all Reply.ack = true := by decide

/-- SetfReplacesTheFieldBits: the largest value that fits a 3-bit field and the smallest that does not. -/
theorem test_witness_setf :
    (7 : Byte).toNat < 2 ^ (fieldDesc started.params.ft .secTens).width ∧
      2 ^ (fieldDesc started.params.ft .secTens).width ≤ (8 : Byte).toNat := by decide

/-- FieldAccessorsObeyTheirLaws: parameters and a table of a build that exists. -/
theorem test_witness_table : paramsOk params = true ∧ fieldTableOk started.params.ft = true := by decide

/-- FieldAccessorsObeyTheirLaws: two fields of one byte without a common bit, on either side, and of two bytes. -/
theorem test_witness_disjoint_fields :
    (fieldDesc fieldTable .secOnes).lsb + (fieldDesc fieldTable .secOnes).width ≤ (fieldDesc fieldTable .secTens).lsb ∧
      (fieldDesc fieldTable .secTens).lsb ≥ (fieldDesc fieldTable .secOnes).lsb + (fieldDesc fieldTable .secOnes).width ∧
      (fieldDesc fieldTable .secOnes).off ≠ (fieldDesc fieldTable .minOnes).off := by decide

/-- SetbcdReadsBack. -/
theorem test_witness_setbcd :
    (fieldDesc fieldTable .minTens).off = (fieldDesc fieldTable .minOnes).off ∧ (fieldDesc fieldTable .minOnes).lsb = 0 ∧
      (fieldDesc fieldTable .minOnes).width = 4 ∧ (fieldDesc fieldTable .minTens).lsb = 4 ∧
      59 / 10 < 2 ^ (fieldDesc fieldTable .minTens).width := by decide

/-- OnlySetfAndRefreshWriteTheImage, CodecAndControlStayOffTheBus: a COMMIT and an INIT that complete. -/
theorem test_witness_frames :
    (next? (exec (.commit 0 1) started)).isSome = true ∧ (next? (exec .init started)).isSome = true := by decide

/-- CompositesFaultAtTheirFirstStep. -/
theorem test_witness_composites :
    validRange 0 1 = true ∧ State.reset.en = false ∧ (pending .mt .tx).pend ≠ none ∧ (onBus .started).bus = .started ∧
      (started.en = true ∧ started.pend = none ∧ started.stopreq = false ∧ started.bus = .idle) := by decide

/-- EveryStepKeepsTheInvariant: the start of 2.5 meets the invariant and has a next state. -/
theorem test_witness_invariant : StateInv started ∧ (next? (step started)).isSome = true := by
  refine ⟨⟨⟨by decide, by decide⟩, ⟨.none, rfl⟩, by unfold StopreqMarksStop; decide, ?_, ?_, ?_, by decide⟩, by decide⟩
  · intro h; exact absurd h (by decide)
  · intro h; exact absurd h (by decide)
  · intro p h; cases h

end Sys2Proof.Tests
end

section
/-! The words of R90: the decoder rejects exactly the illegal words, and no command raises `IllegalCommand` itself, so a step
that takes a word from the host faults with it exactly when the word is illegal. -/

namespace Sys2Proof

/-! ## What the operand decoders reject -/

theorem fieldOfId_eq_none_iff (id : Byte) : fieldOfId id = none ↔ 58 < id.toNat :=
  List.getElem?_eq_none_iff

theorem decodeN_error_iff (w : CmdWord) (i : Instr) :
    (∃ e, decodeN w i = .error e) ↔ aByte w ≠ 0 ∨ bByte w ≠ 0 := by
  unfold decodeN
  split <;> simp_all [← not_and_or]

theorem decodeB_error_iff (w : CmdWord) (mk : Byte → Instr) : (∃ e, decodeB w mk = .error e) ↔ aByte w ≠ 0 := by
  unfold decodeB
  split <;> simp_all

theorem decodeS_error_iff (w : CmdWord) : (∃ e, decodeS w = .error e) ↔ 58 < (aByte w).toNat := by
  rw [← fieldOfId_eq_none_iff]
  unfold decodeS
  cases fieldOfId (aByte w) <;> simp

theorem decodeF_error_iff (w : CmdWord) :
    (∃ e, decodeF w = .error e) ↔ bByte w ≠ 0 ∨ 58 < (aByte w).toNat := by
  rw [← fieldOfId_eq_none_iff]
  unfold decodeF
  by_cases hb : bByte w = 0
  · cases fieldOfId (aByte w) <;> simp [hb]
  · rw [if_neg hb]
    exact ⟨fun _ => .inl hb, fun _ => ⟨_, rfl⟩⟩

/-! ## The decoder by the format of the opcode (R89) -/

open Machine (formatNOpcodes opcodes IllegalWord)

/-- The opcodes of formats B and A (R82, R83, R89). -/
def formatBAOpcodes : List Byte := [0x14, 0x16, 0x20]

/-- The opcodes of format R (R84, R89). -/
def formatROpcodes : List Byte := [0x30, 0x31]

theorem mem_opcodes_iff (op : Byte) :
    op ∈ opcodes ↔ op ∈ formatNOpcodes ∨ op ∈ formatBAOpcodes ∨ op ∈ formatROpcodes ∨ op = 0x40 ∨ op = 0x41 := by
  simp [opcodes, formatBAOpcodes, formatROpcodes, or_assoc]

theorem decode_of_formatN {w : CmdWord} (h : opByte w ∈ formatNOpcodes) : ∃ i, decode w = decodeN w i := by
  simp only [formatNOpcodes, List.mem_cons, List.not_mem_nil, or_false] at h
  rcases h with h | h | h | h | h | h | h | h | h | h | h | h <;> exact ⟨_, by rw [decode, h]; rfl⟩

theorem decode_of_formatBA {w : CmdWord} (h : opByte w ∈ formatBAOpcodes) : ∃ mk, decode w = decodeB w mk := by
  simp only [formatBAOpcodes, List.mem_cons, List.not_mem_nil, or_false] at h
  rcases h with h | h | h <;> exact ⟨_, by rw [decode, h]; rfl⟩

theorem decode_of_formatR {w : CmdWord} (h : opByte w ∈ formatROpcodes) : ∃ i, decode w = .ok i := by
  simp only [formatROpcodes, List.mem_cons, List.not_mem_nil, or_false] at h
  rcases h with h | h <;> exact ⟨_, by rw [decode, h]; rfl⟩

theorem decode_of_getf {w : CmdWord} (h : opByte w = 0x40) : decode w = decodeF w := by rw [decode, h]; rfl

theorem decode_of_setf {w : CmdWord} (h : opByte w = 0x41) : decode w = decodeS w := by rw [decode, h]; rfl

theorem decode_of_unknown {w : CmdWord} (h : opByte w ∉ opcodes) : decode w = .error (.unknownOpcode (opByte w)) := by
  have known (n : Nat) (hn : BitVec.ofNat 8 n ∈ opcodes) : (opByte w).toNat ≠ n := by
    rintro rfl
    exact h (by simpa using hn)
  unfold decode
  split
  case h_20 => rfl
  all_goals next he => exact absurd he (known _ (by decide))

/-! ## The illegal words by the format of the opcode (R90) -/

theorem illegalWord_of_formatN {w : CmdWord} (h : opByte w ∈ formatNOpcodes) :
    IllegalWord w ↔ aByte w ≠ 0 ∨ bByte w ≠ 0 := by
  have disjoint : ∀ op ∈ formatNOpcodes, op ∈ opcodes ∧ op ∉ ([0x14, 0x16, 0x20] : List Byte) ∧ op ≠ 0x40 ∧
      op ∉ ([0x40, 0x41] : List Byte) := by decide
  obtain ⟨hop, hba, hf, hfs⟩ := disjoint _ h
  simp only [IllegalWord, h, hop, hba, hf, hfs, not_true_eq_false, true_and, false_and, false_or, or_false]

theorem illegalWord_of_formatBA {w : CmdWord} (h : opByte w ∈ formatBAOpcodes) : IllegalWord w ↔ aByte w ≠ 0 := by
  have disjoint : ∀ op ∈ formatBAOpcodes, op ∈ opcodes ∧ op ∉ formatNOpcodes ∧ op ≠ 0x40 ∧
      op ∉ ([0x40, 0x41] : List Byte) := by decide
  obtain ⟨hop, hn, hf, hfs⟩ := disjoint _ h
  have hba : opByte w ∈ ([0x14, 0x16, 0x20] : List Byte) := h
  simp only [IllegalWord, hba, hop, hn, hf, hfs, not_true_eq_false, true_and, false_and, false_or, or_false]

theorem not_illegalWord_of_formatR {w : CmdWord} (h : opByte w ∈ formatROpcodes) : ¬ IllegalWord w := by
  have disjoint : ∀ op ∈ formatROpcodes, op ∈ opcodes ∧ op ∉ formatNOpcodes ∧ op ∉ ([0x14, 0x16, 0x20] : List Byte) ∧
      op ≠ 0x40 ∧ op ∉ ([0x40, 0x41] : List Byte) := by decide
  obtain ⟨hop, hn, hba, hf, hfs⟩ := disjoint _ h
  simp only [IllegalWord, hop, hn, hba, hf, hfs, not_true_eq_false, false_and, or_false, not_false_eq_true]

theorem illegalWord_of_getf {w : CmdWord} (h : opByte w = 0x40) :
    IllegalWord w ↔ bByte w ≠ 0 ∨ 58 < (aByte w).toNat := by
  simp [IllegalWord, h, opcodes, formatNOpcodes]

theorem illegalWord_of_setf {w : CmdWord} (h : opByte w = 0x41) : IllegalWord w ↔ 58 < (aByte w).toNat := by
  simp [IllegalWord, h, opcodes, formatNOpcodes]

/-- The decoder rejects exactly the illegal words (R90). -/
theorem decode_error_iff (w : CmdWord) : (∃ e, decode w = .error e) ↔ IllegalWord w := by
  by_cases hop : opByte w ∈ opcodes
  · rcases (mem_opcodes_iff _).mp hop with hn | hba | hr | hf | hs
    · obtain ⟨i, hi⟩ := decode_of_formatN hn
      rw [hi, decodeN_error_iff, illegalWord_of_formatN hn]
    · obtain ⟨mk, hmk⟩ := decode_of_formatBA hba
      rw [hmk, decodeB_error_iff, illegalWord_of_formatBA hba]
    · obtain ⟨i, hi⟩ := decode_of_formatR hr
      simp [hi, not_illegalWord_of_formatR hr]
    · rw [decode_of_getf hf, decodeF_error_iff, illegalWord_of_getf hf]
    · rw [decode_of_setf hs, decodeS_error_iff, illegalWord_of_setf hs]
  · exact ⟨fun _ => .inl hop, fun _ => ⟨_, decode_of_unknown hop⟩⟩

/-! ## The field commands among the instructions -/

/-- The format names a field: F or S (R85, R86). -/
def Fmt.namesField : Fmt → Bool
  | .f _ _ => true
  | .s _ _ _ => true
  | _ => false

/-- A command of a field format is GETF or SETF of that field. -/
theorem fieldCommand_cases {i : Instr} (h : (Machine.fmtOf i).namesField = true) :
    (∃ f, i = getfOf f) ∨ ∃ f v, i = setfOf v f := by
  have key : match Machine.fmtOf i with
      | .f _ f => i = getfOf f
      | .s _ f v => i = setfOf v f
      | _ => True := by cases i <;> trivial
  cases hi : Machine.fmtOf i with
  | f op f => rw [hi] at key; exact .inl ⟨f, key⟩
  | s op f v => rw [hi] at key; exact .inr ⟨f, v, key⟩
  | _ => rw [hi] at h; cases h

end Sys2Proof

namespace Sys2Proof.Machine

/-! ## No command raises `IllegalCommand` -/

theorem launch_ne_illegalCommand (cmd : Instr) (p : Phase) (prep : State → State) (s : State) (w : CmdWord) :
    launch cmd p prep s ≠ .stop (.illegalCommand w) := by
  simp [launch_stop_iff]

theorem loadAddress_ne_illegalCommand (addr : BusAddr) (read : Bool) (s : State) (w : CmdWord) :
    loadAddress addr read s ≠ .stop (.illegalCommand w) := by
  unfold loadAddress precheck
  cases s.en
  · simp
  · cases s.busy <;> simp

theorem microStep_ne_illegalCommand (m : Micro) (s : State) (w : CmdWord) :
    microStep m s ≠ .stop (.illegalCommand w) := by
  cases m with
  | start | stop | xferAddr | sendByte | sendImage | recv | recvLast =>
    simp [microStep, launchStart, launchStop, launchAddr, launchTx, launchRx, launchRxLast, launch_ne_illegalCommand]
  | setAddr addr read => exact loadAddress_ne_illegalCommand _ _ _ _
  | requireEnabled cmd => simp only [microStep]; split <;> simp
  | awaitDone | awaitStop => exact await_ne_stop _ _ _
  | storeData | respondData => simp [microStep]

theorem runMicros_ne_illegalCommand (w : CmdWord) :
    ∀ (ms : List Micro) (s : State), runMicros ms s ≠ .faulted (.illegalCommand w) := by
  intro ms
  induction ms with
  | nil => simp [runMicros]
  | cons m ms ih =>
    intro s
    have hm := microStep_ne_illegalCommand m s w
    unfold runMicros
    cases hstep : microStep m s with
    | go t => exact ih t
    | park t => simp
    | stop f => simpa [hstep] using hm

theorem perform_ne_illegalCommand (ms : List Micro) (s : State) (w : CmdWord) :
    perform ms s ≠ .fault (.illegalCommand w) := by
  obtain ⟨t, _, h⟩ | ⟨left, t, _, h⟩ | ⟨f, hf, h⟩ := perform_cases ms s
  · simp [h]
  · simp [h]
  · rw [h]
    intro he
    cases he
    exact runMicros_ne_illegalCommand w ms _ hf

theorem exec_fieldCommand_ne_illegalCommand {i : Instr} (h : (fmtOf i).namesField = true) (s : State) (w : CmdWord) :
    exec i s ≠ .fault (.illegalCommand w) := by
  obtain ⟨f, rfl⟩ | ⟨f, v, rfl⟩ := fieldCommand_cases h
  · simp [exec_getfOf, readFieldCommand]
  · rw [exec_setfOf, writeFieldCommand]
    split <;> simp

/-- `IllegalCommand` is the decoder's fault alone: no command raises it, in any state (R90). -/
theorem exec_ne_illegalCommand (i : Instr) (s : State) (w : CmdWord) : exec i s ≠ .fault (.illegalCommand w) := by
  cases i with
  | init => simp only [exec, execInit]; split <;> simp
  | enable => simp [exec, execEnable]
  | disable => simp only [exec, execDisable]; split <;> simp
  | status =>
    simp only [exec, execStatus]
    split
    · simp
    · split <;> simp
  | start | stop | wait | waitstop | setaddr | xferaddr | sendbyte | recv | recvlast | beginXfer | endXfer =>
    exact perform_ne_illegalCommand _ _ _
  | refresh start count => simp only [exec, execRefresh]; split <;> simp [perform_ne_illegalCommand]
  | commit start count => simp only [exec, execCommit]; split <;> simp [perform_ne_illegalCommand]
  | _ => exact exec_fieldCommand_ne_illegalCommand rfl s w

/-- Issuing a word faults with `IllegalCommand` exactly when the decoder rejects the word. -/
theorem issueWord_illegalCommand_iff (w : CmdWord) (s : State) :
    issueWord w s = .fault (.illegalCommand w) ↔ ∃ e, decode w = .error e := by
  unfold issueWord
  cases decode w with
  | ok i => simp [exec_ne_illegalCommand]
  | error e => simp

/-- With the port ready and the host next, the step issues the host's word. -/
theorem step_of_word {s : State} {w : CmdWord} {rest : List Event} (ht : s.todo = []) (ha : s.agenda = .cmd w :: rest) :
    step s = issueWord w { s with agenda := rest } := by
  simp [step, turn, State.cmdReady, ht, readyTurn, ha]

/-- Settles O4: the decoder rejects exactly the words of R90, and no command raises `IllegalCommand` itself. -/
theorem illegalCommandExactlyForIllegalWords : Obligations.IllegalCommandExactlyForIllegalWords := by
  intro s w rest ht ha
  rw [step_of_word ht ha, issueWord_illegalCommand_iff, decode_error_iff]

end Sys2Proof.Machine
end

section
namespace Sys2Proof.Machine

/-! ## ENABLE -/

/-- The word of ENABLE: opcode 0x02 of format N (R81, R89). -/
theorem encode_enable : encode .enable = 0x020000 := by decide

/-- ENABLE has no check: in every state it sets `EN` and completes with response 0 (R101). -/
theorem exec_enable (s : State) : exec .enable s = .next ({ s with en := true }.finish 0) := rfl

/-- Settles O11: `finish` writes `todo` and `rsp` and nothing else, so ENABLE changes `en` beside them only. -/
theorem enableSetsEnOnly : Obligations.EnableSetsEnOnly := by
  refine ⟨encode_enable, fun s => ?_⟩
  rw [exec_enable, State.finish]

end Sys2Proof.Machine
end

section
/-! SETADDR (R115): its word, the faults of `precheck` it shares with the other bus commands, and its completion. -/

namespace Sys2Proof

/-! ## The word of SETADDR -/

/-- Bit 0 of the address byte is the direction, and bit `k + 1` is bit `k` of the address (R115). -/
theorem getLsbD_addressByte (addr : BusAddr) (read : Bool) (k : Nat) :
    (Machine.addressByte addr read).getLsbD k = if k < 1 then (BitVec.ofBool read).getLsbD k else addr.getLsbD (k - 1) :=
  BitVec.getLsbD_append

theorem setWidth_addressByte (addr : BusAddr) (read : Bool) :
    (Machine.addressByte addr read).setWidth 24 = addr.setWidth 24 <<< 1 ||| (BitVec.ofBool read).setWidth 24 := by
  ext k hk
  rw [BitVec.getElem_setWidth, getLsbD_addressByte]
  cases k with
  | zero => simp
  | succ k => simp

/-- The word of SETADDR: opcode 0x14 of format A (R83, R89). -/
theorem encode_setaddr (addr : BusAddr) (read : Bool) :
    encode (.setaddr addr read) = 0x140000 ||| addr.setWidth 24 <<< 1 ||| (BitVec.ofBool read).setWidth 24 := by
  calc encode (.setaddr addr read)
      = packWord 0x14 0 (Machine.addressByte addr read) := rfl
    _ = (0x140000 : CmdWord) ||| (Machine.addressByte addr read).setWidth 24 := packWord_or 0x14 0 _
    _ = (0x140000 : CmdWord) ||| (addr.setWidth 24 <<< 1 ||| (BitVec.ofBool read).setWidth 24) := by rw [setWidth_addressByte]
    _ = _ := (BitVec.or_assoc _ _ _).symm

end Sys2Proof

namespace Sys2Proof.Machine

/-! ## The precondition of a bus command -/

theorem precheck_of_disabled (cmd : Instr) {s : State} (he : s.en = false) : precheck cmd s = some (.disabled cmd) := by
  simp [precheck, he]

theorem precheck_of_busy (cmd : Instr) {s : State} (he : s.en = true) (hb : s.pend ≠ none ∨ s.stopreq = true) :
    precheck cmd s = some (.busyViolation cmd s.pend) := by
  have hb : s.busy = true := by simpa [State.busy, Option.isSome_iff_ne_none] using hb
  simp [precheck, he, hb]

/-- A command that faults whenever its `precheck` does has the faults of R110. -/
theorem faultsByPrecheck_of_precheck {i : Instr} (h : ∀ s f, precheck i s = some f → exec i s = .fault f) :
    FaultsByPrecheck i :=
  fun s => ⟨fun he => h s _ (precheck_of_disabled i he), fun he hb => h s _ (precheck_of_busy i he hb)⟩

/-! ## SETADDR -/

/-- SETADDR is an expansion of one step (R115, R133). -/
theorem exec_setaddr (addr : BusAddr) (read : Bool) (s : State) :
    exec (.setaddr addr read) s = perform [.setAddr addr read] s := rfl

/-- The precondition does not read the response port. -/
theorem precheck_rsp (cmd : Instr) (s : State) (r : Option Byte) : precheck cmd { s with rsp := r } = precheck cmd s := rfl

theorem loadAddress_of_precheck {addr : BusAddr} {read : Bool} {s : State} {f : Fault}
    (h : precheck (.setaddr addr read) s = some f) : loadAddress addr read s = .stop f := by
  simp [loadAddress, h]

theorem exec_setaddr_fault {addr : BusAddr} {read : Bool} {s : State} {f : Fault}
    (h : precheck (.setaddr addr read) s = some f) : exec (.setaddr addr read) s = .fault f := by
  rw [← precheck_rsp _ _ none] at h
  rw [exec_setaddr]
  exact perform_of_faulted (by simp [runMicros, microStep, loadAddress_of_precheck h])

/-- SETADDR does not read `BUS`: with the precondition met it writes `DATA` and completes with response 0 (R115). -/
theorem exec_setaddr_ok (addr : BusAddr) (read : Bool) {s : State} (he : s.en = true) (hb : s.busy = false) :
    exec (.setaddr addr read) s = .next ({ s with data := addressByte addr read }.finish 0) := by
  rw [exec_setaddr]
  have hgo : microStep (.setAddr addr read) { s with rsp := none } =
      .go { s with rsp := none, data := addressByte addr read } :=
    loadAddress_eq addr read { s with rsp := none } he hb
  exact perform_of_done (s := s) (runMicros_cons_go (ms := []) hgo)

/-- Settles O16: the word is format A's, the faults are `precheck`'s, and past it SETADDR writes `DATA` in every bus state. -/
theorem setaddrLoadsTheAddressByte : Obligations.SetaddrLoadsTheAddressByte := fun addr read =>
  ⟨encode_setaddr addr read, faultsByPrecheck_of_precheck fun _ _ => exec_setaddr_fault,
    fun s he hp hq => exec_setaddr_ok addr read he ((busy_false_iff s).mpr ⟨hp, hq⟩)⟩

end Sys2Proof.Machine
end

section
/-! The completions of the Engine (R121, R123, R126). The environment's part of a completion is set aside by `withEnvOf`,
which every named update of the block commutes with. -/

namespace Sys2Proof.Machine

/-! ## States up to their environment -/

/-- A state with the same block is the same state once it has the same environment. -/
theorem SameBlock.withEnvOf_eq {s t : State} (h : SameBlock s t) : t.withEnvOf s = s := by
  cases s
  cases t
  cases h
  simp_all [State.withEnvOf]

theorem withEnvOf_completeWith (s t : State) (c : StatusName) (b : BusState) :
    (t.completeWith c b).withEnvOf s = (t.withEnvOf s).completeWith c b := rfl

theorem withEnvOf_wedge (s t : State) : t.wedge.withEnvOf s = (t.withEnvOf s).wedge := rfl

/-! ## A NACKed phase -/

theorem completeNacked_of_completes {s : State} (c : StatusName) (h : s.params.nackCompletes = true) :
    s.completeNacked c = s.completeWith c .nacked := by
  simp [State.completeNacked, h]

theorem completeNacked_of_wedges {s : State} (c : StatusName) (h : s.params.nackCompletes = false) :
    s.completeNacked c = s.wedge := by
  simp [State.completeNacked, h, State.wedge]

theorem withEnvOf_completeNacked (s t : State) (c : StatusName) :
    (t.completeNacked c).withEnvOf s = (t.withEnvOf s).completeNacked c := by
  cases h : t.params.nackCompletes with
  | true =>
    rw [completeNacked_of_completes c h, withEnvOf_completeWith]
    exact (completeNacked_of_completes (s := t.withEnvOf s) c h).symm
  | false =>
    rw [completeNacked_of_wedges c h, withEnvOf_wedge]
    exact (completeNacked_of_wedges (s := t.withEnvOf s) c h).symm

/-! ## A transmitted byte -/

/-- The environment's part of a transmission leaves the block as it was. -/
theorem writeAsked_withEnvOf (s : State) (d : Byte) (ack : Bool) : (writeAsked s d ack).withEnvOf s = s :=
  (writeAsked_block s d ack).withEnvOf_eq

/-- The block's part of an acknowledged byte: the code 0x28, and `BUS` stays (R123). -/
theorem completeTx_acked {s : State} (h : writeAnswer s s.data = true) :
    (completeTx s).withEnvOf s = s.completeWith .dwAck s.bus := by
  rw [completeTx, if_pos h, withEnvOf_completeWith, writeAsked_withEnvOf]

/-- The block's part of a byte that is not acknowledged: a NACKed phase with the code 0x30 (R123). -/
theorem completeTx_nacked {s : State} (h : writeAnswer s s.data = false) :
    (completeTx s).withEnvOf s = s.completeNacked .dwNack := by
  rw [completeTx, if_neg (by simp [h]), withEnvOf_completeNacked, writeAsked_withEnvOf]

/-- Settles O28: by the slave's answer, and for a NACK by `NACK_COMPLETES`. -/
theorem engineCompletesTransmit : Obligations.EngineCompletesTransmit := by
  intro s he hw hp
  rw [engineStep_of_pend he hw hp, completePhase]
  refine ⟨fun hack => ?_, fun hnack hc => ?_, fun hnack hc => ?_⟩
  · exact completeTx_acked hack
  · rw [completeTx_nacked hnack, completeNacked_of_completes _ hc]
    rfl
  · rw [completeTx_nacked hnack, completeNacked_of_wedges _ hc]
    rfl

/-! ## START and STOP -/

/-- The code of a START: 0x08 for the first, 0x10 for a repeated one (R121). -/
theorem statusCode_startStatus (b : BusState) : statusCode (startStatus b) = if b = .idle then 0x08 else 0x10 := by
  unfold startStatus
  split <;> rfl

/-- Settles O26: `completeStart` writes these elements and no other, its code by the bus state before. -/
theorem engineCompletesStart : Obligations.EngineCompletesStart := by
  intro s he hw hp
  rw [engineStep_of_pend he hw hp, completePhase, completeStart, State.completeWith, statusCode_startStatus]
  rfl

/-- Settles O30: `completeStop` writes these elements and no other; `DONE` is not among them. -/
theorem engineCompletesStop : Obligations.EngineCompletesStop := by
  intro s he hw hp
  rw [engineStep_of_pend he hw hp, completePhase, completeStop]
  rfl

end Sys2Proof.Machine
end

section
/-! The field commands (R150, R151): the words of GETF and SETF, the field table of R88 row by row, the bits GETF answers and
the byte SETF leaves. -/

namespace Sys2Proof

/-! ## The words -/

theorem fmtOf_getfOf (f : Field) : Machine.fmtOf (getfOf f) = .f 0x40 f := by cases f <;> rfl

theorem fmtOf_setfOf (v : Byte) (f : Field) : Machine.fmtOf (setfOf v f) = .s 0x41 f v := by cases f <;> rfl

/-- The word of GETF: opcode 0x40 of format F, the field id in `a` (R85, R89). -/
theorem encode_getfOf (f : Field) : encode (getfOf f) = 0x400000 ||| (fieldId f).setWidth 24 <<< 8 := by
  rw [encode, fmtOf_getfOf, wordOf, packWord_or]
  exact BitVec.or_zero

/-- The word of SETF: opcode 0x41 of format S, the field id in `a` and the value in `b` (R86, R89). -/
theorem encode_setfOf (v : Byte) (f : Field) :
    encode (setfOf v f) = 0x410000 ||| (fieldId f).setWidth 24 <<< 8 ||| v.setWidth 24 := by
  rw [encode, fmtOf_setfOf]
  exact packWord_or 0x41 (fieldId f) v

end Sys2Proof

namespace Sys2Proof.Machine

/-! ## The field table of R88 -/

/-- A field stands at its own id in the order of the ids. -/
theorem mem_fieldOrder (f : Field) : f ∈ fieldOrder := List.mem_of_getElem? (fieldOfId_fieldId f)

theorem fieldTableRows_fields : fieldTableRows.map FieldTableRow.field = fieldOrder := rfl

theorem exists_fieldTableRow (f : Field) : ∃ r ∈ fieldTableRows, r.field = f := by
  rw [← List.mem_map, fieldTableRows_fields]
  exact mem_fieldOrder f

theorem fieldTableRows_ids : ∀ r ∈ fieldTableRows, fieldId r.field = r.id := by decide

theorem fieldTableRows_descs : ∀ r ∈ fieldTableRows, fieldDesc fieldTable r.field = ⟨r.off, r.lsb, r.width⟩ := by decide

/-! ## GETF -/

/-- What GETF answers is the slice of the byte that the field's row names, zero-extended (R150). -/
theorem extractField_eq_slice (d : FieldDesc) (x : Byte) :
    extractField d x = (x.extractLsb' d.lsb d.width).setWidth 8 := by
  apply BitVec.eq_of_getLsbD_eq
  intro k hk
  rw [getLsbD_extractField d x k hk, BitVec.getLsbD_setWidth, BitVec.getLsbD_extractLsb']
  simp [hk]

/-- Settles O52: the words by the format, the answer as a slice of the byte, and the rows as R88 prints them. -/
theorem getfReturnsTheFieldBits : Obligations.GetfReturnsTheFieldBits := by
  refine ⟨fun f s => ⟨encode_getfOf f, ?_⟩, fun r hr => ⟨fieldTableRows_ids r hr, fieldTableRows_descs r hr⟩,
    exists_fieldTableRow⟩
  rw [exec_getfOf, readFieldCommand, extractField_eq_slice, State.finish]

/-! ## SETF -/

theorem read_writeField_same (d : FieldDesc) (v : Byte) (m : Memory) :
    (writeField d v m).read d.off.val = insertField d (m.read d.off.val) v :=
  Memory.read_write_same _ _ _

theorem read_writeField_other {d : FieldDesc} (v : Byte) (m : Memory) {a : Nat} (h : a ≠ d.off.val) :
    (writeField d v m).read a = m.read a :=
  Memory.read_write_other _ _ h

/-- SETF of a value that does not fit (R151). -/
theorem writeFieldCommand_too_big {f : Field} {v : Byte} {s : State}
    (h : 2 ^ (fieldDesc s.params.ft f).width ≤ v.toNat) :
    writeFieldCommand f v s = .fault (.fieldValueError f v) := by
  rw [writeFieldCommand, if_neg]
  simpa [fitsField] using h

/-- Settles O53: a value that fits is written into the field's byte alone, bit by bit as `insertField` places it; one that
does not fit is the fault. -/
theorem setfReplacesTheFieldBits : Obligations.SetfReplacesTheFieldBits := by
  refine fun f v s => ⟨encode_setfOf v f, fun hfits => ?_, fun hbig => ?_⟩
  · refine ⟨_, (exec_setfOf f v s).trans (writeFieldCommand_fits hfits), rfl, ?otherBytes, ?bits⟩
    case otherBytes => exact fun a ha => read_writeField_other v s.img ha
    case bits =>
      intro k hk
      rw [State.finish_img, read_writeField_same, getLsbD_insertField _ _ _ k hk hfits]
  · rw [exec_setfOf, writeFieldCommand_too_big hbig]

end Sys2Proof.Machine
end

section
/-! The round trip of words and commands (R80 to R90), and the host's word at a step (R36): the decoder undoes the encoder on
every command, and the encoder the decoder on every word that decodes. -/

namespace Sys2Proof

open Machine (formatNOpcodes opcodes)

/-! ## From a command to its word and back -/

theorem decode_encode_fieldCommand {i : Instr} (h : (Machine.fmtOf i).namesField = true) : decode (encode i) = .ok i := by
  obtain ⟨f, rfl⟩ | ⟨f, v, rfl⟩ := fieldCommand_cases h
  · rw [encode, fmtOf_getfOf, wordOf, decode_of_getf (opByte_packWord _ _ _), decodeF_pack]
  · rw [encode, fmtOf_setfOf, wordOf, decode_of_setf (opByte_packWord _ _ _), decodeS_pack]

/-- The decoder undoes the encoder (R80 to R89). -/
theorem decode_encode (i : Instr) : decode (encode i) = .ok i := by
  cases i with
  | init | enable | disable | status | start | stop | wait | waitstop | xferaddr | recv | recvlast | endXfer =>
    rw [encode, Machine.fmtOf, wordOf, decode, opByte_packWord]
    exact decodeN_pack _ _
  | setaddr addr read | beginXfer addr read =>
    rw [encode, Machine.fmtOf, wordOf, decode, opByte_packWord]
    refine (decodeB_pack _ _ _).trans ?_
    rw [Machine.addressOf_addressByte, Machine.directionOf_addressByte]
  | sendbyte d =>
    rw [encode, Machine.fmtOf, wordOf, decode, opByte_packWord]
    exact decodeB_pack _ _ _
  | refresh start count | commit start count =>
    rw [encode, Machine.fmtOf, wordOf, decode, opByte_packWord, aByte_packWord, bByte_packWord]
    rfl
  | _ => exact decode_encode_fieldCommand rfl

/-! ## From a word to its command and back, by the format of the opcode -/

/-- The field ids are the places of the fields in their order, which names no field twice (R88). -/
theorem fieldId_of_fieldOfId {id : Byte} {f : Field} (h : fieldOfId id = some f) : fieldId f = id := by
  have hid : id.toNat < Machine.fieldOrder.length := (List.getElem?_eq_some_iff.mp h).1
  have hnodup : Machine.fieldOrder.Nodup := by decide
  have hplace : id.toNat = (fieldId f).toNat :=
    (List.getElem?_inj hid hnodup).mp (h.trans (fieldOfId_fieldId f).symm)
  exact BitVec.eq_of_toNat_eq hplace.symm

theorem encode_of_decodeN {w : CmdWord} {i j : Instr} (hj : encode j = packWord (opByte w) 0 0)
    (h : decodeN w j = .ok i) : encode i = w := by
  unfold decodeN at h
  split at h
  next hab =>
    cases h
    rw [hj]
    simpa [hab] using packWord_bytes w
  next => cases h

theorem encode_of_decodeB {w : CmdWord} {i : Instr} {mk : Byte → Instr}
    (hmk : ∀ b, encode (mk b) = packWord (opByte w) 0 b) (h : decodeB w mk = .ok i) : encode i = w := by
  unfold decodeB at h
  split at h
  next ha =>
    cases h
    rw [hmk, ← ha, packWord_bytes]
  next => cases h

theorem encode_of_decodeF {w : CmdWord} {i : Instr} (hop : opByte w = 0x40) (h : decodeF w = .ok i) : encode i = w := by
  unfold decodeF at h
  split at h
  next hb =>
    split at h
    next f hf =>
      cases h
      rw [encode, fmtOf_getfOf, wordOf, fieldId_of_fieldOfId hf, ← hop, ← hb, packWord_bytes]
    next => cases h
  next => cases h

theorem encode_of_decodeS {w : CmdWord} {i : Instr} (hop : opByte w = 0x41) (h : decodeS w = .ok i) : encode i = w := by
  unfold decodeS at h
  split at h
  next f hf =>
    cases h
    rw [encode, fmtOf_setfOf, wordOf, fieldId_of_fieldOfId hf, ← hop, packWord_bytes]
  next => cases h

/-- A word with an opcode of format N decodes as the command with that opcode's word. -/
theorem decodeN_of_formatN {w : CmdWord} (h : opByte w ∈ formatNOpcodes) :
    ∃ j, decode w = decodeN w j ∧ encode j = packWord (opByte w) 0 0 := by
  simp only [formatNOpcodes, List.mem_cons, List.not_mem_nil, or_false] at h
  rcases h with h | h | h | h | h | h | h | h | h | h | h | h <;>
    exact ⟨_, by rw [decode, h]; rfl, by rw [h]; rfl⟩

/-- A word with an opcode of format B or A decodes as the command whose word carries the operand byte. -/
theorem decodeB_of_formatBA {w : CmdWord} (h : opByte w ∈ formatBAOpcodes) :
    ∃ mk, decode w = decodeB w mk ∧ ∀ b, encode (mk b) = packWord (opByte w) 0 b := by
  simp only [formatBAOpcodes, List.mem_cons, List.not_mem_nil, or_false] at h
  rcases h with h | h | h <;> refine ⟨_, by rw [decode, h]; rfl, fun b => ?_⟩ <;>
    simp [encode, Machine.fmtOf, wordOf, h]

theorem encode_of_formatR {w : CmdWord} {i : Instr} (h : opByte w ∈ formatROpcodes) (hd : decode w = .ok i) :
    encode i = w := by
  simp only [formatROpcodes, List.mem_cons, List.not_mem_nil, or_false] at h
  rcases h with h | h <;>
  · rw [decode, h] at hd
    cases hd
    rw [encode, Machine.fmtOf, wordOf, ← h, packWord_bytes]

/-- A word that decodes is the word of its command (R80 to R90). -/
theorem encode_of_decode {w : CmdWord} {i : Instr} (hd : decode w = .ok i) : encode i = w := by
  by_cases hop : opByte w ∈ opcodes
  · rcases (mem_opcodes_iff _).mp hop with hn | hba | hr | hf | hs
    · obtain ⟨j, hj, hw⟩ := decodeN_of_formatN hn
      exact encode_of_decodeN hw (hj ▸ hd)
    · obtain ⟨mk, hmk, hw⟩ := decodeB_of_formatBA hba
      exact encode_of_decodeB hw (hmk ▸ hd)
    · exact encode_of_formatR hr hd
    · exact encode_of_decodeF hf (decode_of_getf hf ▸ hd)
    · exact encode_of_decodeS hs (decode_of_setf hs ▸ hd)
  · rw [decode_of_unknown hop] at hd
    cases hd

/-- Settles O2: format by format, with the operand byte taken apart for the address commands. -/
theorem decodeOfEncode : Obligations.DecodeOfEncode := decode_encode

/-- Settles O3: by the format of the word's opcode; each decoder checks the bytes its format leaves 0x00. -/
theorem encodeOfDecode : Obligations.EncodeOfDecode := fun _ _ => encode_of_decode

/-- Settles O1: each is the word that the encoder gives its command. -/
theorem specExampleWordsDecode : Obligations.SpecExampleWordsDecode :=
  ⟨decode_encode .start, decode_encode (.sendbyte 0x0E), decode_encode (.beginXfer 0x68 true),
    decode_encode (.refresh 0 19), decode_encode .getfSecTens, decode_encode (.setfA2F 0)⟩

/-- Settles O5: the host's turn with the port ready. -/
theorem stepRunsTheDecodedCommand : Obligations.StepRunsTheDecodedCommand :=
  fun _ _ _ _ => Machine.step_of_cmd

end Sys2Proof
end

section
/-! What one step of the machine can do, once, whichever agent moves: the prompt steps of an expansion, the control and field
commands, and the completions of the Engine. A property that each of these keeps is kept by every step short of `rst`
(`KeptByMoves`); the wedge (R127), `WEDGED` itself (R31) and the invariant of the machine are three such properties. -/

namespace Sys2Proof.Machine

/-! ## The prompt steps of an expansion -/

/-! Each phase command's step is a launch (R111 to R119). -/

theorem microStep_start (s : State) : microStep .start s = launch .start .start id s := rfl

theorem microStep_stop (s : State) :
    microStep .stop s = launch .stop .stop (fun s => { s with stopreq := true }) s := rfl

theorem microStep_xferAddr (s : State) : microStep .xferAddr s = launch .xferaddr .addr id s := rfl

theorem microStep_sendByte (d : Byte) (s : State) :
    microStep (.sendByte d) s = launch (.sendbyte d) .tx (fun s => { s with data := d, acken := false }) s := rfl

theorem microStep_sendImage (i : ImgIdx) (s : State) :
    microStep (.sendImage i) s = microStep (.sendByte (s.img.read i.val)) s := rfl

theorem microStep_recv (s : State) :
    microStep .recv s = launch .recv .rxAck (fun s => { s with acken := true }) s := rfl

theorem microStep_recvLast (s : State) :
    microStep .recvLast s = launch .recvlast .rxNack (fun s => { s with acken := false }) s := rfl

/-- The steps of an expansion at which the other agents move (R7, R133). -/
def Micro.awaits : Micro → Bool
  | .awaitDone => true
  | .awaitStop => true
  | _ => false

/-- The writes of a phase command before its issue (R111 to R119): `DATA`, `ACKEN`, and `STOPREQ` for a STOP alone. -/
def State.prepare (s : State) (d : Byte) (k : Bool) (p : Phase) : State :=
  { s with data := d, acken := k, stopreq := decide (p = .stop) }

/-- What a prompt step `m` of an expansion leaves of a state it does not fault in. -/
inductive PromptStep (m : Micro) (s : State) : State → Prop where
  | issued (d : Byte) (k : Bool) (p : Phase) : s.en = true → s.busy = false → legality p s.bus = .ok →
      PromptStep m s ((s.prepare d k p).issue p)
  | wedged (d : Byte) (k : Bool) (p : Phase) : s.en = true → s.busy = false → legality p s.bus = .wedge →
      PromptStep m s ((s.prepare d k p).issue p).wedge
  | loaded (d : Byte) : s.en = true → s.busy = false → PromptStep m s { s with data := d }
  | checked : s.en = true → PromptStep m s s
  | stored (i : ImgIdx) (v : Byte) : m = .storeData i → PromptStep m s { s with img := s.img.write i.val v }
  | responded (r : Option Byte) : m = .respondData → PromptStep m s { s with rsp := r }

/-- Where no stop is in progress, `STOPREQ` is 0 already. -/
theorem set_stopreq_false {s : State} (h : s.stopreq = false) : ({ s with stopreq := false } : State) = s := by
  rw [← h]

theorem PromptStep.of_launch {m : Micro} {cmd : Instr} {p : Phase} {prep : State → State} {s t : State}
    (h : launch cmd p prep s = .go t) (hprep : s.stopreq = false → ∃ d k, prep s = s.prepare d k p) : PromptStep m s t := by
  obtain ⟨he, hb, hlegal⟩ := (launch_go_iff _ _ _ _ _).mp h
  obtain ⟨d, k, hp⟩ := hprep ((busy_false_iff s).mp hb).2
  obtain ⟨hl, rfl⟩ | ⟨hl, rfl⟩ := hlegal <;> rw [hp]
  · exact .issued d k p he hb hl
  · exact .wedged d k p he hb hl

theorem PromptStep.of_loadAddress {m : Micro} {addr : BusAddr} {read : Bool} {s t : State} (h : loadAddress addr read s = .go t) :
    PromptStep m s t := by
  unfold loadAddress at h
  split at h
  next => cases h
  next hp =>
    cases h
    obtain ⟨he, hb⟩ := (precheck_none_iff _ s).mp hp
    exact .loaded _ he hb

/-- Everything a step of an expansion that is no await can do, short of a fault. -/
theorem PromptStep.of_microStep {m : Micro} {s t : State} (hm : m.awaits = false) (h : microStep m s = .go t) :
    PromptStep m s t := by
  cases m with
  | start =>
    rw [microStep_start] at h
    exact .of_launch h (fun hq => ⟨s.data, s.acken, (set_stopreq_false hq).symm⟩)
  | stop =>
    rw [microStep_stop] at h
    exact .of_launch h (fun _ => ⟨s.data, s.acken, rfl⟩)
  | xferAddr =>
    rw [microStep_xferAddr] at h
    exact .of_launch h (fun hq => ⟨s.data, s.acken, (set_stopreq_false hq).symm⟩)
  | sendByte d =>
    rw [microStep_sendByte] at h
    exact .of_launch h (fun hq => ⟨d, false, by rw [← set_stopreq_false hq]; rfl⟩)
  | sendImage i =>
    rw [microStep_sendImage, microStep_sendByte] at h
    exact .of_launch h (fun hq => ⟨s.img.read i.val, false, by rw [← set_stopreq_false hq]; rfl⟩)
  | recv =>
    rw [microStep_recv] at h
    exact .of_launch h (fun hq => ⟨s.data, true, by rw [← set_stopreq_false hq]; rfl⟩)
  | recvLast =>
    rw [microStep_recvLast] at h
    exact .of_launch h (fun hq => ⟨s.data, false, by rw [← set_stopreq_false hq]; rfl⟩)
  | setAddr addr read => exact .of_loadAddress h
  | requireEnabled cmd =>
    simp only [microStep] at h
    split at h
    next he => cases h; exact .checked he
    next => cases h
  | storeData i => cases h; exact .stored i s.data rfl
  | respondData => cases h; exact .responded (some s.data) rfl
  | awaitDone | awaitStop => cases hm

theorem microStep_ne_park {m : Micro} (hm : m.awaits = false) (s t : State) : microStep m s ≠ .park t := by
  cases m with
  | awaitDone | awaitStop => cases hm
  | setAddr addr read => simp only [microStep, loadAddress]; split <;> simp
  | requireEnabled cmd => simp only [microStep]; split <;> simp
  | storeData | respondData => simp [microStep]
  | start | stop | xferAddr | sendByte | sendImage | recv | recvLast =>
    simp [microStep_start, microStep_stop, microStep_xferAddr, microStep_sendByte, microStep_sendImage, microStep_recv,
      microStep_recvLast, launch_ne_park]

/-! ## The control and field commands -/

/-- What a control or field command `i` leaves of a state it does not fault in, but for the response (R100 to R103, R150, R151). -/
inductive ControlWrite (i : Instr) (s : State) : State → Prop where
  | same : ControlWrite i s s
  | enabled (div : Byte) : ControlWrite i s { s with div := div, en := true }
  | disabled : s.inTransaction = false → ControlWrite i s { s with en := false }
  | drawn (n : Nat) : ControlWrite i s { s with draws := n }
  | fieldWritten (f : Field) (v : Byte) : i = setfOf v f →
      ControlWrite i s { s with img := writeField (fieldDesc s.params.ft f) v s.img }

/-- A command that completes by a control write, or faults. -/
def CompletesByControl (i : Instr) (s : State) : Prop :=
  (∃ f, exec i s = .fault f) ∨ ∃ t v, ControlWrite i s t ∧ exec i s = .next (t.finish v)

theorem completesByControl_fieldCommand {i : Instr} (h : (fmtOf i).namesField = true) (s : State) :
    CompletesByControl i s := by
  obtain ⟨f, rfl⟩ | ⟨f, v, rfl⟩ := fieldCommand_cases h
  · exact .inr ⟨s, _, .same, exec_getfOf f s⟩
  · by_cases hv : v.toNat < 2 ^ (fieldDesc s.params.ft f).width
    · exact .inr ⟨_, 0, .fieldWritten f v rfl, (exec_setfOf f v s).trans (writeFieldCommand_fits hv)⟩
    · exact .inl ⟨_, (exec_setfOf f v s).trans (writeFieldCommand_too_big (Nat.le_of_not_lt hv))⟩

theorem completesByControl_init (s : State) : CompletesByControl .init s := by
  cases h : s.inTransaction with
  | true => exact .inl ⟨_, by simp [exec, execInit, h]; rfl⟩
  | false => exact .inr ⟨_, 0, .enabled (divConst s.params), by simp [exec, execInit, h]⟩

theorem completesByControl_enable (s : State) : CompletesByControl .enable s := .inr ⟨_, 0, .enabled s.div, rfl⟩

theorem completesByControl_disable (s : State) : CompletesByControl .disable s := by
  cases h : s.inTransaction with
  | true => exact .inl ⟨_, by simp [exec, execDisable, h]; rfl⟩
  | false => exact .inr ⟨_, 0, .disabled h, by simp [exec, execDisable, h]⟩

theorem completesByControl_status (s : State) : CompletesByControl .status s := by
  cases he : s.en with
  | false => exact .inl ⟨_, by simp [exec, execStatus, he]; rfl⟩
  | true =>
    cases hp : s.pend.isSome with
    | true => exact .inr ⟨_, _, .drawn (s.draws + 1), by simp [exec, execStatus, he, hp]; rfl⟩
    | false => exact .inr ⟨s, s.status, .same, by simp [exec, execStatus, he, hp]⟩

/-- The steps of a COMMIT's burst store nothing in the image and answer nothing. -/
theorem silent_transmitSteps : ∀ n a, (∀ k, Micro.storeData k ∉ transmitSteps a n) ∧ Micro.respondData ∉ transmitSteps a n
  | 0, _ => by simp [transmitSteps]
  | n + 1, a => by simp [transmitSteps, waitSteps, silent_transmitSteps n]

theorem respondData_not_mem_receiveSteps : ∀ n a, Micro.respondData ∉ receiveSteps a n
  | 0, _ => by simp [receiveSteps]
  | 1, _ => by simp [receiveSteps]
  | n + 2, a => by simp [receiveSteps, respondData_not_mem_receiveSteps (n + 1)]

/-- The command `i` performs these steps, whatever agent moves next; only those of a REFRESH store in the image, and a response
is the last step (R91, R133). -/
structure ExpandsTo (i : Instr) (s : State) (ms : List Micro) : Prop where
  exec : ∀ y, Machine.exec i { s with agenda := y } = perform ms { s with agenda := y }
  stores : ∀ k, .storeData k ∈ ms → ∃ start count, i = .refresh start count
  responds : .respondData ∉ ms.dropLast

theorem expandsTo_refresh {start count : Byte} (h : validRange start count = true) (s : State) :
    ExpandsTo (.refresh start count) s (refreshSteps s.params.addrClock start count) where
  exec y := by simp [Machine.exec, execRefresh, h]
  stores _ _ := ⟨start, count, rfl⟩
  responds hm := by
    have := List.mem_of_mem_dropLast hm
    simp [refreshSteps, beginSteps, endSteps, waitSteps, waitstopSteps, respondData_not_mem_receiveSteps] at this

theorem expandsTo_commit {start count : Byte} (h : validRange start count = true) (s : State) :
    ExpandsTo (.commit start count) s (commitSteps s.params.addrClock start count) where
  exec y := by simp [Machine.exec, execCommit, h]
  stores k hk := by
    simp [commitSteps, beginSteps, endSteps, waitSteps, waitstopSteps, (silent_transmitSteps _ _).1] at hk
  responds hm := by
    have := List.mem_of_mem_dropLast hm
    simp [commitSteps, beginSteps, endSteps, waitSteps, waitstopSteps, (silent_transmitSteps _ _).2] at this

/-- Every command performs its expansion, faults, or is a control or field command. -/
theorem exec_cases (i : Instr) (s : State) : (∃ ms, ExpandsTo i s ms) ∨ CompletesByControl i s := by
  cases i with
  | init => exact .inr (completesByControl_init s)
  | enable => exact .inr (completesByControl_enable s)
  | disable => exact .inr (completesByControl_disable s)
  | status => exact .inr (completesByControl_status s)
  | start | stop | wait | waitstop | setaddr | xferaddr | sendbyte | recv | recvlast | beginXfer | endXfer =>
    exact .inl ⟨_, fun _ => rfl, by simp [waitSteps, waitstopSteps, beginSteps, endSteps],
      by simp [waitSteps, waitstopSteps, beginSteps, endSteps]⟩
  | refresh start count =>
    cases hv : validRange start count with
    | true => exact .inl ⟨_, expandsTo_refresh hv s⟩
    | false => exact .inr (.inl ⟨_, by simp [exec, execRefresh, hv]; rfl⟩)
  | commit start count =>
    cases hv : validRange start count with
    | true => exact .inl ⟨_, expandsTo_commit hv s⟩
    | false => exact .inr (.inl ⟨_, by simp [exec, execCommit, hv]; rfl⟩)
  | _ => exact .inr (completesByControl_fieldCommand rfl s)

theorem ExpandsTo.exec_eq {i : Instr} {s : State} {ms : List Micro} (h : ExpandsTo i s ms) :
    Machine.exec i s = perform ms s := h.exec s.agenda

/-! ## What every step keeps -/

/-- A property that the moves an await takes keep: the Engine's, the chip's, and taking a move from the agenda. -/
structure KeptByAgents (P : State → Prop) : Prop where
  engine : ∀ {s}, P s → P (engineStep s)
  chipTime : ∀ (a : ImgIdx) (v : Byte) {s}, P s → P (chipTimeMove a v s)
  agenda : ∀ (y : List Event) {s}, P s → P { s with agenda := y }

/-- A property that every move short of `rst` keeps: also the port's, the prompt steps of an expansion, and the control and
field commands. -/
structure KeptByMoves (P : State → Prop) : Prop extends KeptByAgents P where
  port : ∀ (x : Option Byte) (z : List Micro) {s}, P s → P { s with rsp := x, todo := z }
  prompt : ∀ {m s t}, P s → PromptStep m s t → P t
  control : ∀ {i s t}, P s → ControlWrite i s t → P t

namespace KeptByAgents

variable {P : State → Prop} (hk : KeptByAgents P)
include hk

theorem await {c : State → Bool} {s : State} (hs : P s) :
    (∀ t, Machine.await c s = .go t → P t) ∧ (∀ t, Machine.await c s = .park t → P t) :=
  awaitFrom_invariant (P := P) (fun _ => hk.engine) (fun a v _ => hk.chipTime a v) (fun _ ag => hk.agenda ag) _ s hs

theorem microStep {m : Micro} (hm : ∀ {s t}, P s → PromptStep m s t → P t) {s : State} (hs : P s) :
    (∀ t, Machine.microStep m s = .go t → P t) ∧ (∀ t, Machine.microStep m s = .park t → P t) := by
  cases hw : m.awaits with
  | false => exact ⟨fun t h => hm hs (.of_microStep hw h), fun t h => absurd h (microStep_ne_park hw s t)⟩
  | true =>
    cases m with
    | awaitDone | awaitStop => exact hk.await hs
    | _ => cases hw

/-- An expansion whose prompt steps keep a property keeps it, whether it completes or blocks. -/
theorem runMicros {ms : List Micro} (hms : ∀ m ∈ ms, ∀ {s t}, P s → PromptStep m s t → P t) {s : State} (hs : P s) :
    (∀ t, Machine.runMicros ms s = .done t → P t) ∧ (∀ left t, Machine.runMicros ms s = .parked left t → P t) := by
  induction ms generalizing s with
  | nil => exact ⟨fun t h => (by cases h; exact hs), fun left t h => (by cases h)⟩
  | cons m ms ih =>
    obtain ⟨hgo, hpark⟩ := hk.microStep (hms m List.mem_cons_self) hs
    unfold Machine.runMicros
    cases hm : Machine.microStep m s with
    | go u => exact ih (fun n hn => hms n (List.mem_cons_of_mem m hn)) (hgo u hm)
    | park u => exact ⟨fun t h => (by cases h), fun left t h => (by cases h; exact hpark u hm)⟩
    | stop f => exact ⟨fun t h => (by cases h), fun left t h => (by cases h)⟩

theorem perform (hport : ∀ (x : Option Byte) (z : List Micro) {s}, P s → P { s with rsp := x, todo := z })
    {ms : List Micro} (hms : ∀ m ∈ ms, ∀ {s t}, P s → PromptStep m s t → P t) {s t : State} (hs : P s)
    (h : Machine.perform ms s = .next t) : P t := by
  obtain ⟨hdone, hparked⟩ := hk.runMicros hms (hport none s.todo hs)
  obtain ⟨u, hu, he⟩ | ⟨left, u, hu, he⟩ | ⟨f, _, he⟩ := perform_cases ms s <;> rw [he] at h <;> cases h
  · exact hport _ [] (hdone u hu)
  · exact hport u.rsp left (hparked left u hu)

end KeptByAgents

namespace KeptByMoves

variable {P : State → Prop} (hk : KeptByMoves P)
include hk

theorem perform {ms : List Micro} {s t : State} (hs : P s) (h : Machine.perform ms s = .next t) : P t :=
  hk.toKeptByAgents.perform hk.port (fun _ _ => hk.prompt) hs h

theorem exec {i : Instr} {s t : State} (hs : P s) (h : Machine.exec i s = .next t) : P t := by
  obtain ⟨ms, he⟩ | ⟨f, he⟩ | ⟨u, v, hc, he⟩ := exec_cases i s
  · exact hk.perform hs (he.exec_eq ▸ h)
  · rw [he] at h; cases h
  · rw [he] at h; cases h; exact hk.port _ _ (hk.control hs hc)

theorem issueWord {w : CmdWord} {s t : State} (hs : P s) (h : Machine.issueWord w s = .next t) : P t := by
  unfold Machine.issueWord at h
  split at h
  next => exact hk.exec hs h
  next => cases h

/-- Every step keeps it, or is `rst`. -/
theorem step {s t : State} (hs : P s) (h : Machine.step s = .next t) :
    P t ∨ ∃ p rest, s.agenda = .rst p :: rest ∧ t = blockReset p { s with agenda := rest } := by
  have hhost (x : Option Byte) (y : List Event) : P { s with rsp := x, agenda := y } :=
    hk.agenda y (hk.port x s.todo hs)
  obtain ⟨_, _, he⟩ | ⟨w, rest, _, _, he⟩ | ⟨rest, _, _, he⟩ | ⟨a, v, rest, _, _, he⟩ | ⟨rest, _, he⟩ | ⟨p, rest, ha, he⟩ |
    ⟨_, _, _, he⟩ := step_cases s <;> rw [he] at h
  case inr.inl => exact .inl (hk.issueWord (hhost s.rsp rest) h)
  case inr.inr.inr.inr.inr.inr => exact .inl (hk.perform hs h)
  all_goals cases h
  case inl => exact .inl (dueStep_invariant (P := P) (fun _ => hk.engine) (hhost none s.agenda))
  case inr.inr.inl => exact .inl (hk.engine (hhost none rest))
  case inr.inr.inr.inl => exact .inl (hk.chipTime a v (hhost none rest))
  case inr.inr.inr.inr.inl => exact .inl (hhost none rest)
  case inr.inr.inr.inr.inr.inl => exact .inr ⟨p, rest, ha, rfl⟩

end KeptByMoves

/-! ## The wedge -/

/-- The pending phase and the bus of `t` are those of `s`, and the bus is wedged (R127). -/
structure FrozenAs (s t : State) : Prop where
  wedged : t.wedged = true
  pend : t.pend = s.pend
  done : t.done = s.done
  stopreq : t.stopreq = s.stopreq
  bus : t.bus = s.bus
  status : t.status = s.status
  data : t.data = s.data
  sel : t.sel = s.sel
  history : t.history = s.history

/-- A frozen bus with a phase pending admits no bus command. -/
theorem FrozenAs.busy {s t : State} (h : FrozenAs s t) (hp : s.pend.isSome = true) : t.busy = true := by
  simp [State.busy, h.pend, hp]

theorem frozenAs_keptByMoves {s : State} (hp : s.pend.isSome = true) : KeptByMoves (FrozenAs s) where
  engine h := by rw [engineStep_of_wedged h.wedged]; exact h
  chipTime _ _ _ h := ⟨h.wedged, h.pend, h.done, h.stopreq, h.bus, h.status, h.data, h.sel, h.history⟩
  agenda _ _ h := ⟨h.wedged, h.pend, h.done, h.stopreq, h.bus, h.status, h.data, h.sel, h.history⟩
  port _ _ _ h := ⟨h.wedged, h.pend, h.done, h.stopreq, h.bus, h.status, h.data, h.sel, h.history⟩
  prompt h ht := by
    have hbusy := h.busy hp
    cases ht with
    | issued _ _ _ _ hb | wedged _ _ _ _ hb | loaded _ _ hb => rw [hbusy] at hb; cases hb
    | checked => exact h
    | stored | responded => exact ⟨h.wedged, h.pend, h.done, h.stopreq, h.bus, h.status, h.data, h.sel, h.history⟩
  control h ht := by
    cases ht <;> exact ⟨h.wedged, h.pend, h.done, h.stopreq, h.bus, h.status, h.data, h.sel, h.history⟩

/-- Settles O33: with a phase pending on a wedged bus the Engine has no step and every bus command is busy, so every move
short of `rst` leaves the bus frozen. -/
theorem wedgedBusStaysWedged : Obligations.WedgedBusStaysWedged := by
  intro s t p hw hp hrst h
  have hself : FrozenAs s s := ⟨hw, rfl, rfl, rfl, rfl, rfl, rfl, rfl, rfl⟩
  obtain ht | ⟨b, rest, ha, _⟩ := (frozenAs_keptByMoves (by simp [hp])).step hself h
  · exact ⟨ht.wedged, ht.pend.trans hp, ht.done, ht.stopreq, ht.bus, ht.status, ht.data, ht.sel, ht.history⟩
  · exact absurd ha (hrst b rest)

theorem wedged_keptByMoves : KeptByMoves (fun s => s.wedged = true) where
  engine h := by rw [engineStep_of_wedged h]; exact h
  chipTime _ _ _ h := h
  agenda _ _ h := h
  port _ _ _ h := h
  prompt h ht := by
    cases ht with
    | wedged => rfl
    | _ => exact h
  control h ht := by cases ht <;> exact h

/-- Settles O34: every other move keeps `WEDGED`, and `rst` of the block alone keeps it too. -/
theorem onlyResetClearsWedged : Obligations.OnlyResetClearsWedged := by
  intro s t hw h hclear
  obtain ht | ⟨p, rest, ha, rfl⟩ := wedged_keptByMoves.step hw h
  · rw [hclear] at ht; cases ht
  · have hp : p = true := by simpa [blockReset, hw] using hclear
    exact ⟨rest, hp ▸ ha⟩

end Sys2Proof.Machine
end

section
/-! The invariant of the machine (R23, R24, R27, R102, R127, R128; entry 19): every completion of the Engine, every prompt step,
every control or field command and the reset input keeps it. -/

namespace Sys2Proof.Machine

/-! ## The end of a phase -/

/-- How the Engine's completion of a pending phase leaves the block: completed, stopped, or wedged by a NACK where
`NACK_COMPLETES` is false (R121 to R126). -/
inductive PhaseEnd (p : Phase) (s t : State) : Prop where
  | completed (c : StatusName) : p ≠ .stop → t.status = statusCode c → t.done = true → t.pend = none →
      t.stopreq = s.stopreq → t.wedged = s.wedged → PhaseEnd p s t
  | stopped : p = .stop → t.status = statusCode .none → t.done = s.done → t.pend = none → t.stopreq = false →
      t.wedged = s.wedged → PhaseEnd p s t
  | wedged : s.params.nackCompletes = false → t.wedged = true → t.status = s.status → t.done = s.done →
      t.pend = s.pend → t.stopreq = s.stopreq → t.bus = s.bus → PhaseEnd p s t

theorem PhaseEnd.of_completeNacked {p : Phase} {s t : State} (c : StatusName) (hp : p ≠ .stop) (h : SameBlock s t) :
    PhaseEnd p s (t.completeNacked c) := by
  cases hn : s.params.nackCompletes with
  | true =>
    rw [completeNacked_of_completes c (h.params ▸ hn)]
    exact .completed c hp rfl rfl rfl h.stopreq h.wedged
  | false =>
    rw [completeNacked_of_wedges c (h.params ▸ hn)]
    exact .wedged hn rfl h.status h.done h.pend h.stopreq h.bus

theorem completePhase_end (p : Phase) (s : State) : PhaseEnd p s (completePhase p s) := by
  cases p with
  | start => exact .completed (startStatus s.bus) (by decide) rfl rfl rfl rfl rfl
  | addr =>
    simp only [completePhase, completeAddr]
    split
    · exact .completed _ (by decide) rfl rfl rfl rfl rfl
    · exact .of_completeNacked _ (by decide) (addrAsked_block _ _ _ _)
  | tx =>
    have h (ack : Bool) := writeAsked_block s s.data ack
    simp only [completePhase, completeTx]
    split
    · exact .completed .dwAck (by decide) rfl rfl rfl (h true).stopreq (h true).wedged
    · exact .of_completeNacked _ (by decide) (h false)
  | rxAck =>
    have h := readAsked_block s true
    exact .completed .drAck (by decide) rfl rfl rfl h.stopreq h.wedged
  | rxNack =>
    have h := readAsked_block s false
    exact .completed .drNack (by decide) rfl rfl rfl h.stopreq h.wedged
  | stop => exact .stopped rfl rfl rfl rfl rfl rfl

theorem completeNacked_chip (s : State) (c : StatusName) : (s.completeNacked c).chip = s.chip := by
  unfold State.completeNacked
  split <;> rfl

theorem completePhase_chip_wf (p : Phase) {s : State} (h : s.chip.wf = true) : (completePhase p s).chip.wf = true := by
  cases p with
  | start | stop => exact h
  | addr =>
    simp only [completePhase, completeAddr]
    split
    · exact h
    · rw [completeNacked_chip, addrAsked_chip]; exact h
  | tx =>
    simp only [completePhase, completeTx]
    split
    · exact writeAsked_chip_wf s s.data true h
    · rw [completeNacked_chip]; exact writeAsked_chip_wf s s.data false h
  | rxAck => exact (congrArg Memory.wf (readAsked_chip s true)).trans h
  | rxNack => exact (congrArg Memory.wf (readAsked_chip s false)).trans h

/-! ## The moves keep the invariant -/

/-- The completion of a pending phase keeps the invariant: the phase is no longer pending, or it wedges where it was legal. -/
theorem stateInv_completePhase {p : Phase} {s : State} (he : s.en = true) (hw : s.wedged = false) (hp : s.pend = some p)
    (h : StateInv s) : StateInv (completePhase p s) := by
  obtain ⟨⟨himg, hchip⟩, hstatus, hstop, hdone, _, hlegal, hparams⟩ := h
  have hframe := completePhase_frame p s
  have hcanon : MemoriesCanonical (completePhase p s) := ⟨hframe.img ▸ himg, completePhase_chip_wf p hchip⟩
  have hpower : PoweredDownIsIdle (completePhase p s) := fun hoff => by rw [hframe.en, he] at hoff; cases hoff
  have hparams' : paramsOk (completePhase p s).params = true := hframe.params ▸ hparams
  have hnotdone : s.done = false := by
    by_contra hd
    have hnone := (hdone (by simpa using hd)).1
    rw [hnone] at hp
    cases hp
  cases completePhase_end p s with
  | completed c hne hc hd hpend hq hw' =>
    have hq' : s.stopreq = false := by
      by_contra hs
      rw [hstop.mp (by simpa using hs)] at hp
      exact hne (Option.some.inj hp).symm
    refine ⟨hcanon, ⟨c, hc⟩, ?_, fun _ => ⟨hpend, hw'.trans hw⟩, hpower, ?_, hparams'⟩
    · simp [StopreqMarksStop, hpend, hq, hq']
    · simp [PendingIsLegal, hpend]
  | stopped _ hc hd hpend hq hw' =>
    refine ⟨hcanon, ⟨_, hc⟩, ?_, ?_, hpower, ?_, hparams'⟩
    · simp [StopreqMarksStop, hpend, hq]
    · simp [DoneMeansComplete, hd, hnotdone]
    · simp [PendingIsLegal, hpend]
  | wedged _ hw' hc hd hpend hq hbus =>
    refine ⟨hcanon, hstatus.imp fun _ => hc.trans, ?_, ?_, hpower, ?_, hparams'⟩
    · simpa [StopreqMarksStop, hpend, hq] using hstop
    · simp [DoneMeansComplete, hd, hnotdone]
    · intro q hq
      rw [hbus]
      exact (hlegal q (hpend ▸ hq)).imp_right fun hl => ⟨hl.1, hw'⟩

theorem stateInv_engineStep {s : State} (h : StateInv s) : StateInv (engineStep s) := by
  obtain ⟨_, he⟩ | ⟨p, hen, hw, hp, he⟩ := engineStep_cases s <;> rw [he]
  · exact h
  · exact stateInv_completePhase hen hw hp h

theorem stateInv_chipTimeMove (a : ImgIdx) (v : Byte) {s : State} (h : StateInv s) : StateInv (chipTimeMove a v s) := by
  obtain ⟨⟨himg, hchip⟩, hrest⟩ := h
  exact ⟨⟨himg, Memory.write_wf v a.isLt hchip⟩, hrest⟩

/-- A launch leaves a phase pending that the table of R128 admits, or one that it wedges. -/
theorem stateInv_issue {p : Phase} {s : State} (d : Byte) (k w : Bool) (he : s.en = true)
    (hl : legality p s.bus = .ok ∨ (legality p s.bus = .wedge ∧ w = true)) (h : StateInv s) :
    StateInv { (s.prepare d k p).issue p with wedged := w } := by
  obtain ⟨hcanon, hstatus, _, _, _, _, hparams⟩ := h
  refine ⟨hcanon, hstatus, ?_, fun hd => (by cases hd), fun hoff => ?_, ?_, hparams⟩
  · simp [StopreqMarksStop, State.prepare]
  · have hon : s.en = false := hoff
    rw [he] at hon; cases hon
  · rintro q ⟨⟩
    exact hl

theorem stateInv_keptByMoves : KeptByMoves StateInv where
  engine := stateInv_engineStep
  chipTime a v _ := stateInv_chipTimeMove a v
  agenda _ _ h := h
  port _ _ _ h := h
  prompt {_ s _} h ht := by
    cases ht with
    | issued d k p he _ hl => exact stateInv_issue d k s.wedged he (.inl hl) h
    | wedged d k p he _ hl => exact stateInv_issue d k true he (.inr ⟨hl, rfl⟩) h
    | loaded | checked | responded => exact h
    | stored i =>
      obtain ⟨⟨himg, hchip⟩, hrest⟩ := h
      exact ⟨⟨Memory.write_wf _ i.isLt himg, hchip⟩, hrest⟩
  control {_ s _} h ht := by
    obtain ⟨⟨himg, hchip⟩, hstatus, hstop, hdone, hpower, hlegal, hparams⟩ := h
    cases ht with
    | same | drawn => exact ⟨⟨himg, hchip⟩, hstatus, hstop, hdone, hpower, hlegal, hparams⟩
    | enabled => exact ⟨⟨himg, hchip⟩, hstatus, hstop, hdone, fun hoff => (by cases hoff), hlegal, hparams⟩
    | disabled hidle =>
      refine ⟨⟨himg, hchip⟩, hstatus, hstop, hdone, fun _ => ?_, hlegal, hparams⟩
      obtain ⟨hb, hbus⟩ : s.busy = false ∧ s.bus = .idle := by simpa [State.inTransaction] using hidle
      exact ⟨((busy_false_iff s).mp hb).1, hbus⟩
    | fieldWritten f v =>
      exact ⟨⟨Memory.write_wf _ (Fin.isLt _) himg, hchip⟩, hstatus, hstop, hdone, hpower, hlegal, hparams⟩

/-! ## Reset -/

theorem stateInv_blockReset (slaves : Bool) {s : State} (h : StateInv s) : StateInv (blockReset slaves s) := by
  obtain ⟨⟨_, hchip⟩, _, _, _, _, _, hparams⟩ := h
  exact ⟨⟨Memory.ofBytes_wf (fun a => Config.draw8 (s.draws + 2 + a)), hchip⟩, ⟨.none, rfl⟩, by simp [StopreqMarksStop, blockReset], fun hd => (by cases hd),
    fun _ => ⟨rfl, rfl⟩, fun p hp => (by cases hp), hparams⟩

/-- The parameters at reset are those of a build that exists, whatever `Config.build` is. -/
theorem paramsOk_resetParams : paramsOk resetParams = true := by
  have hbuild : buildOk (if buildOk Config.build then Config.build else someBuild) = true := by
    split
    next h => exact h
    next => decide
  exact (Bool.and_eq_true _ _).mpr ⟨hbuild, fieldTableOk_fieldTable⟩

/-- Settles O59: nothing is pending at reset, and the parameters are those of a build that exists. -/
theorem resetMeetsTheInvariant : Obligations.ResetMeetsTheInvariant :=
  ⟨⟨rfl, rfl⟩, ⟨.none, rfl⟩, by simp [StopreqMarksStop, State.reset], fun hd => (by cases hd), fun _ => ⟨rfl, rfl⟩,
    fun p hp => (by cases hp), paramsOk_resetParams⟩

/-! ## The parameters -/

theorem params_keptByMoves (p : Params) : KeptByMoves (fun s => s.params = p) where
  engine {s} h := (engineStep_frame s).params.trans h
  chipTime _ _ _ h := h
  agenda _ _ h := h
  port _ _ _ h := h
  prompt h ht := by cases ht <;> exact h
  control h ht := by cases ht <;> exact h

/-- Settles O60: every move short of `rst` keeps the invariant and the parameters, and so does `rst`. -/
theorem everyStepKeepsTheInvariant : Obligations.EveryStepKeepsTheInvariant := by
  intro s t hinv h
  have hkept : StateInv t ∨ ∃ p rest, s.agenda = .rst p :: rest ∧ t = blockReset p { s with agenda := rest } :=
    stateInv_keptByMoves.step hinv h
  have hparams : t.params = s.params ∨ ∃ p rest, s.agenda = .rst p :: rest ∧ t = blockReset p { s with agenda := rest } :=
    (params_keptByMoves s.params).step rfl h
  refine ⟨hkept.elim id ?_, hparams.elim id ?_⟩
  · rintro ⟨p, rest, _, rfl⟩
    exact stateInv_blockReset p (s := { s with agenda := rest }) hinv
  · rintro ⟨p, rest, _, rfl⟩
    rfl

/-! ## The frames of the commands -/

/-- Settles O56: of the prompt steps only the store of a REFRESH writes the image, and of the control and field commands only
SETF. -/
theorem onlySetfAndRefreshWriteTheImage : Obligations.OnlySetfAndRefreshWriteTheImage := by
  intro i s t hrefresh hsetf h
  obtain ⟨ms, he⟩ | ⟨f, he⟩ | ⟨u, v, hc, he⟩ := exec_cases i s
  · rw [he.exec_eq] at h
    have hkept : KeptByAgents (fun t => t.img = s.img) :=
      { engine := fun {u} hu => (engineStep_frame u).img.trans hu, chipTime := fun _ _ _ hu => hu, agenda := fun _ _ hu => hu }
    refine hkept.perform (fun _ _ _ hu => hu) (fun m hm {u w} hu hp => ?_) rfl h
    cases hp with
    | stored k v hmk =>
      obtain ⟨start, count, hi⟩ := he.stores k (hmk ▸ hm)
      exact absurd hi (hrefresh start count)
    | _ => exact hu
  · rw [he] at h
    cases h
  · rw [he] at h
    cases h
    cases hc with
    | fieldWritten f v hi => exact absurd hi (hsetf f v)
    | _ => rfl

/-- Settles O57: each of these commands completes by a control write, which touches none of these elements. -/
theorem codecAndControlStayOffTheBus : Obligations.CodecAndControlStayOffTheBus := by
  intro i s t hi h
  have hcontrol : CompletesByControl i s := by
    obtain rfl | rfl | rfl | rfl | ⟨f, rfl⟩ | ⟨f, v, rfl⟩ := hi
    · exact completesByControl_init s
    · exact completesByControl_enable s
    · exact completesByControl_disable s
    · exact completesByControl_status s
    · exact completesByControl_fieldCommand (by rw [fmtOf_getfOf]; rfl) s
    · exact completesByControl_fieldCommand (by rw [fmtOf_setfOf]; rfl) s
  obtain ⟨f, he⟩ | ⟨u, v, hc, he⟩ := hcontrol <;> rw [he] at h <;> cases h
  cases hc <;> exact ⟨rfl, rfl, rfl, rfl, rfl, rfl, rfl, rfl, rfl, rfl, rfl, rfl, rfl⟩

/-! ## No refusal -/

theorem perform_ne_refused (ms : List Micro) (s : State) (r : Refusal) : perform ms s ≠ .refused r := by
  obtain ⟨t, _, h⟩ | ⟨left, t, _, h⟩ | ⟨f, _, h⟩ := perform_cases ms s <;> simp [h]

theorem exec_ne_refused (i : Instr) (s : State) (r : Refusal) : exec i s ≠ .refused r := by
  obtain ⟨ms, h⟩ | ⟨f, h⟩ | ⟨t, v, _, h⟩ := exec_cases i s
  · rw [h.exec_eq]; exact perform_ne_refused ms s r
  · simp [h]
  · simp [h]

theorem issueWord_ne_refused (w : CmdWord) (s : State) (r : Refusal) : issueWord w s ≠ .refused r := by
  unfold issueWord
  split
  · exact exec_ne_refused _ s r
  · simp

/-- Settles O6: a command performs its expansion, faults, or completes; a step is a command or a move of another agent. -/
theorem nothingIsRefused : Obligations.NothingIsRefused := by
  refine ⟨exec_ne_refused, fun s r => ?_⟩
  obtain ⟨_, _, h⟩ | ⟨w, rest, _, _, h⟩ | ⟨rest, _, _, h⟩ | ⟨a, v, rest, _, _, h⟩ | ⟨rest, _, h⟩ | ⟨p, rest, _, h⟩ |
    ⟨_, _, _, h⟩ := step_cases s <;> rw [h]
  case inr.inl => exact issueWord_ne_refused w _ r
  case inr.inr.inr.inr.inr.inr => exact perform_ne_refused s.todo s r
  all_goals simp

/-! ## The host's word while a command is in progress -/

/-- An await with the host next gets at most the due step, and leaves the agenda. -/
theorem await_agenda_of_cmd {c : State → Bool} {s : State} {w : CmdWord} {rest : List Event}
    (ha : s.agenda = .cmd w :: rest) :
    (∀ t, await c s = .go t → t.agenda = .cmd w :: rest) ∧ (∀ t, await c s = .park t → t.agenda = .cmd w :: rest) := by
  have hdue : (dueStep s).agenda = .cmd w :: rest := (dueStep_frame s).agenda.trans ha
  rw [await_of_settled (by simp [State.settled, ha])]
  unfold awaitEngine
  constructor <;> intro t h <;> split at h
  · cases h; exact ha
  · split at h <;> cases h; exact hdue
  · cases h
  · split at h <;> cases h; exact hdue

theorem microStep_agenda_of_cmd {w : CmdWord} {rest : List Event} (m : Micro) (s : State)
    (ha : s.agenda = .cmd w :: rest) :
    (∀ t, microStep m s = .go t → t.agenda = .cmd w :: rest) ∧
      (∀ t, microStep m s = .park t → t.agenda = .cmd w :: rest) := by
  cases hw : m.awaits with
  | false =>
    refine ⟨fun t h => ?_, fun t h => absurd h (microStep_ne_park hw s t)⟩
    cases PromptStep.of_microStep hw h <;> exact ha
  | true =>
    cases m with
    | awaitDone | awaitStop => exact await_agenda_of_cmd ha
    | _ => cases hw

/-- Settles O7: the command in progress goes on, and none of its steps takes the host's word. -/
theorem noCommandWhileOneIsInProgress : Obligations.NoCommandWhileOneIsInProgress := by
  intro s t w rest htodo ha h
  have hstep : step s = perform s.todo s := by simp [step, turn, State.cmdReady, htodo, blockedTurn, ha]
  obtain ⟨hdone, hparked⟩ := runMicros_invariant microStep_agenda_of_cmd s.todo { s with rsp := none } ha
  rw [hstep] at h
  obtain ⟨u, hu, he⟩ | ⟨left, u, hu, he⟩ | ⟨f, _, he⟩ := perform_cases s.todo s <;> rw [he] at h <;> cases h
  · exact hdone u hu
  · exact hparked left u hu

end Sys2Proof.Machine
end

section
/-! The commands that do not block, and the faults of those that do: the control commands (R100 to R103), the phase commands by
the bus state (R110 to R119), the first step of the composites (R183), the range check (R60), and the reset input (R39, R200). -/

namespace Sys2Proof.Machine

/-! ## Control commands -/

theorem inTransaction_false_iff (s : State) :
    s.inTransaction = false ↔ s.pend = none ∧ s.stopreq = false ∧ s.bus = .idle := by
  simp [State.inTransaction, busy_false_iff, and_assoc]

theorem inTransaction_of_any {s : State} (h : s.pend ≠ none ∨ s.stopreq = true ∨ s.bus ≠ .idle) :
    s.inTransaction = true := by
  by_contra hn
  obtain ⟨hp, hq, hb⟩ := (inTransaction_false_iff s).mp (by simpa using hn)
  simp [hp, hq, hb] at h

/-- Settles O10: INIT checks that nothing is pending and no transaction open. -/
theorem initLoadsTheDividerAndEnables : Obligations.InitLoadsTheDividerAndEnables := by
  refine ⟨by decide, fun s => ⟨fun hp hq hb => ?_, fun h => ?_⟩⟩
  · rw [exec, execInit, (inTransaction_false_iff s).mpr ⟨hp, hq, hb⟩]
    rfl
  · rw [exec, execInit, inTransaction_of_any h]
    rfl

/-- Settles O12: DISABLE checks what INIT checks. -/
theorem disableClearsEnWhenIdle : Obligations.DisableClearsEnWhenIdle := by
  refine ⟨by decide, fun s => ⟨fun hp hq hb => ?_, fun h => ?_⟩⟩
  · rw [exec, execDisable, (inTransaction_false_iff s).mpr ⟨hp, hq, hb⟩]
    rfl
  · rw [exec, execDisable, inTransaction_of_any h]
    rfl

/-- Settles O13: by `EN` and by whether a phase is pending. -/
theorem statusReadsTheStatusField : Obligations.StatusReadsTheStatusField := by
  refine ⟨by decide, fun s => ⟨fun he hp => ?_, fun he hp => ?_, fun he => ?_⟩⟩
  · simp [exec, execStatus, he, hp, State.finish]
  · simp [exec, execStatus, he, Option.isSome_iff_ne_none.mpr hp, State.finish]
  · simp [exec, execStatus, he]

/-! ## A command whose first step is a launch -/

theorem launch_of_precheck {cmd : Instr} {p : Phase} {prep : State → State} {s : State} {f : Fault}
    (h : precheck cmd s = some f) : launch cmd p prep s = .stop f := by
  simp [launch, h]

theorem launch_of_illegal {cmd : Instr} {p : Phase} {prep : State → State} {s : State} (he : s.en = true)
    (hb : s.busy = false) (hl : legality p s.bus = .fault) : launch cmd p prep s = .stop (.phaseOrder cmd s.bus) :=
  (launch_stop_iff _ _ _ _ _).mpr (.inr (.inr ⟨he, hb, hl, rfl⟩))

theorem launch_wedge {cmd : Instr} {p : Phase} {prep : State → State} {s : State} (he : s.en = true)
    (hb : s.busy = false) (hl : legality p s.bus = .wedge) : launch cmd p prep s = .go ((prep s).issue p).wedge :=
  (launch_go_iff _ _ _ _ _).mpr ⟨he, hb, .inr ⟨hl, rfl⟩⟩

/-- A fault of the first step is the command's (R133). -/
theorem perform_of_first_stop {m : Micro} {ms : List Micro} {s : State} {f : Fault}
    (h : microStep m { s with rsp := none } = .stop f) : perform (m :: ms) s = .fault f :=
  perform_of_faulted (by simp only [runMicros, h])

/-- A command of one step that goes on completes with response 0. -/
theorem perform_of_only_go {m : Micro} {s t : State} (h : microStep m { s with rsp := none } = .go t)
    (hr : t.rsp = none) : perform [m] s = .next (t.finish 0) := by
  rw [perform_of_done (runMicros_cons_go h), hr]
  rfl

section
variable {m : Micro} {cmd : Instr} {p : Phase} {prep : State → State} (hm : ∀ s, microStep m s = launch cmd p prep s)
include hm

theorem perform_launch_precheck {ms : List Micro} {s : State} {f : Fault} (h : precheck cmd s = some f) :
    perform (m :: ms) s = .fault f :=
  perform_of_first_stop ((hm _).trans (launch_of_precheck ((precheck_rsp cmd s none).trans h)))

theorem perform_launch_illegal {ms : List Micro} {s : State} (he : s.en = true) (hb : s.busy = false)
    (hl : legality p s.bus = .fault) : perform (m :: ms) s = .fault (.phaseOrder cmd s.bus) :=
  perform_of_first_stop ((hm _).trans (launch_of_illegal (s := { s with rsp := none }) he hb hl))

theorem perform_launch_ok {s : State} (he : s.en = true) (hb : s.busy = false) (hl : legality p s.bus = .ok)
    (hr : (prep { s with rsp := none }).rsp = none) :
    perform [m] s = .next (((prep { s with rsp := none }).issue p).finish 0) :=
  perform_of_only_go ((hm _).trans (launch_ok (s := { s with rsp := none }) he hb hl)) hr

theorem perform_launch_wedge {s : State} (he : s.en = true) (hb : s.busy = false) (hl : legality p s.bus = .wedge)
    (hr : (prep { s with rsp := none }).rsp = none) :
    perform [m] s = .next (((prep { s with rsp := none }).issue p).wedge.finish 0) :=
  perform_of_only_go ((hm _).trans (launch_wedge (s := { s with rsp := none }) he hb hl)) hr

/-- A command that is, or starts with, a launch of its own has the faults of `precheck`. -/
theorem faultsByPrecheck_of_launch {ms : List Micro} (hexec : ∀ s, exec cmd s = perform (m :: ms) s) :
    FaultsByPrecheck cmd :=
  faultsByPrecheck_of_precheck fun s _ h => (hexec s).trans (perform_launch_precheck hm h)

end

/-! ## The phase commands by the bus state -/

/-- Settles O14: the column START of R128. -/
theorem startIssuesByBusState : Obligations.StartIssuesByBusState := by
  refine ⟨by decide, faultsByPrecheck_of_launch microStep_start fun _ => rfl, fun s he hp hq => ?_⟩
  have hb := (busy_false_iff s).mpr ⟨hp, hq⟩
  refine ⟨fun hbus => ?_, fun hbus => ?_, fun hbus => ?_⟩
  · have hl : legality .start s.bus = .ok := by rcases hbus with h | h | h | h <;> rw [h] <;> rfl
    exact perform_launch_ok microStep_start he hb hl rfl
  · exact perform_launch_wedge microStep_start he hb (by rw [hbus]; rfl) rfl
  · rw [← hbus]
    exact perform_launch_illegal microStep_start he hb (by rw [hbus]; rfl)

/-- Settles O15: the column STOP of R128. -/
theorem stopIssuesByBusState : Obligations.StopIssuesByBusState := by
  refine ⟨by decide, faultsByPrecheck_of_launch microStep_stop fun _ => rfl, fun s he hp hq => ?_⟩
  have hb := (busy_false_iff s).mpr ⟨hp, hq⟩
  refine ⟨fun hbus => ?_, fun hbus => ?_, fun hbus => ?_⟩
  · have hl : legality .stop s.bus = .ok := by rcases hbus with h | h | h <;> rw [h] <;> rfl
    exact perform_launch_ok microStep_stop he hb hl rfl
  · exact perform_launch_wedge microStep_stop he hb (by rw [hbus]; rfl) rfl
  · have hl : legality .stop s.bus = .fault := by rcases hbus with h | h <;> rw [h] <;> rfl
    exact perform_launch_illegal microStep_stop he hb hl

theorem legality_addr_of_ne {b : BusState} (h : b ≠ .started) : legality .addr b = .fault := by
  cases b with
  | started => exact absurd rfl h
  | _ => rfl

/-- Settles O17: the column XFERADDR of R128. -/
theorem xferaddrIssuesOnlyAfterStart : Obligations.XferaddrIssuesOnlyAfterStart := by
  refine ⟨by decide, faultsByPrecheck_of_launch microStep_xferAddr fun _ => rfl, fun s he hp hq => ?_⟩
  have hb := (busy_false_iff s).mpr ⟨hp, hq⟩
  refine ⟨fun hbus => ?_, fun hbus => ?_⟩
  · exact perform_launch_ok microStep_xferAddr he hb (by rw [hbus]; rfl) rfl
  · exact perform_launch_illegal microStep_xferAddr he hb (legality_addr_of_ne hbus)

/-- The word of SENDBYTE: opcode 0x16 of format B (R82, R89). -/
theorem encode_sendbyte (d : Byte) : encode (.sendbyte d) = 0x160000 ||| d.setWidth 24 := packWord_or 0x16 0 d

/-- Settles O18: the column SENDBYTE of R128. -/
theorem sendbyteIssuesByBusState : Obligations.SendbyteIssuesByBusState := by
  refine fun d => ⟨encode_sendbyte d, faultsByPrecheck_of_launch (microStep_sendByte d) fun _ => rfl, fun s he hp hq => ?_⟩
  have hb := (busy_false_iff s).mpr ⟨hp, hq⟩
  refine ⟨fun hbus => ?_, fun hbus => ?_, fun hmt hnacked => ?_⟩
  · exact perform_launch_ok (microStep_sendByte d) he hb (by rw [hbus]; rfl) rfl
  · exact perform_launch_wedge (microStep_sendByte d) he hb (by rw [hbus]; rfl) rfl
  · have hl : legality .tx s.bus = .fault := by
      cases h : s.bus with
      | mt => exact absurd h hmt
      | nacked => exact absurd h hnacked
      | _ => rfl
    exact perform_launch_illegal (microStep_sendByte d) he hb hl

/-- Settles O19: the columns RECV and RECVLAST of R128, where they fault. -/
theorem receiveFaultsOutsideMasterReceiver : Obligations.ReceiveFaultsOutsideMasterReceiver := by
  refine ⟨faultsByPrecheck_of_launch microStep_recv fun _ => rfl,
    faultsByPrecheck_of_launch microStep_recvLast fun _ => rfl, fun s he hp hq hmr hnacked => ?_⟩
  have hb := (busy_false_iff s).mpr ⟨hp, hq⟩
  have hl : legality .rxAck s.bus = .fault ∧ legality .rxNack s.bus = .fault := by
    cases h : s.bus with
    | mr => exact absurd h hmr
    | nacked => exact absurd h hnacked
    | _ => exact ⟨rfl, rfl⟩
  exact ⟨perform_launch_illegal microStep_recv he hb hl.1, perform_launch_illegal microStep_recvLast he hb hl.2⟩

/-! ## The composites -/

theorem exec_refresh_of_valid {start count : Byte} (h : validRange start count = true) (s : State) :
    exec (.refresh start count) s = perform (refreshSteps s.params.addrClock start count) s := (expandsTo_refresh h s).exec_eq

theorem exec_commit_of_valid {start count : Byte} (h : validRange start count = true) (s : State) :
    exec (.commit start count) s = perform (commitSteps s.params.addrClock start count) s := (expandsTo_commit h s).exec_eq

/-- A command whose expansion starts with a launch has the faults of that first step, in the order of R183. -/
theorem perform_launch_faults {m : Micro} {cmd : Instr} {p : Phase} {prep : State → State}
    (hm : ∀ s, microStep m s = launch cmd p prep s) (ms : List Micro) (s : State) :
    (s.en = false → perform (m :: ms) s = .fault (.disabled cmd)) ∧
    (s.en = true → (s.pend ≠ none ∨ s.stopreq = true) → perform (m :: ms) s = .fault (.busyViolation cmd s.pend)) ∧
    (s.en = true → s.pend = none → s.stopreq = false → legality p s.bus = .fault →
      perform (m :: ms) s = .fault (.phaseOrder cmd s.bus)) :=
  ⟨fun he => perform_launch_precheck hm (precheck_of_disabled cmd he),
    fun he hb => perform_launch_precheck hm (precheck_of_busy cmd he hb),
    fun he hp hq hl => perform_launch_illegal hm he ((busy_false_iff s).mpr ⟨hp, hq⟩) hl⟩

/-- BEGIN and the range commands of a valid range start with START (R130, R140, R141). -/
theorem exec_starts_with_start {s : State} {i : Instr}
    (h : (∃ addr read, i = .beginXfer addr read) ∨
      ∃ start count, validRange start count = true ∧ (i = .refresh start count ∨ i = .commit start count)) :
    ∃ ms, exec i s = perform (.start :: ms) s := by
  obtain ⟨addr, read, rfl⟩ | ⟨start, count, hv, rfl | rfl⟩ := h
  · exact ⟨_, rfl⟩
  · exact ⟨_, exec_refresh_of_valid hv s⟩
  · exact ⟨_, exec_commit_of_valid hv s⟩

/-- Settles O58: the first step of each composite is a launch, of START or of STOP. -/
theorem compositesFaultAtTheirFirstStep : Obligations.CompositesFaultAtTheirFirstStep := by
  rintro s i first (⟨hi, rfl⟩ | ⟨rfl, rfl⟩)
  · obtain ⟨ms, he⟩ := exec_starts_with_start (s := s) hi
    obtain ⟨hdisabled, hbusy, horder⟩ := perform_launch_faults microStep_start ms s
    rw [he]
    refine ⟨hdisabled, hbusy, fun hen hp hq hbus => horder hen hp hq ?_⟩
    obtain hbus | ⟨hstop, _⟩ := hbus
    · rw [hbus]; rfl
    · cases hstop
  · obtain ⟨hdisabled, hbusy, horder⟩ := perform_launch_faults microStep_stop waitstopSteps s
    refine ⟨hdisabled, hbusy, fun hen hp hq hbus => horder hen hp hq ?_⟩
    obtain hbus | ⟨_, hbus⟩ := hbus <;> rw [hbus] <;> rfl

/-! ## The range check -/

/-- The faults of the engine, which a step of an expansion can raise (R181, codes 2 to 4). -/
def Fault.ofEngine : Fault → Bool
  | .disabled _ => true
  | .busyViolation _ _ => true
  | .phaseOrder _ _ => true
  | _ => false

theorem precheck_ofEngine {cmd : Instr} {s : State} {f : Fault} (h : precheck cmd s = some f) : f.ofEngine = true := by
  unfold precheck at h
  split at h
  · cases h; rfl
  · split at h <;> cases h
    rfl

theorem launch_stop_ofEngine {cmd : Instr} {p : Phase} {prep : State → State} {s : State} {f : Fault}
    (h : launch cmd p prep s = .stop f) : f.ofEngine = true := by
  obtain ⟨_, rfl⟩ | ⟨_, _, rfl⟩ | ⟨_, _, _, rfl⟩ := (launch_stop_iff _ _ _ _ _).mp h <;> rfl

theorem microStep_stop_ofEngine {m : Micro} {s : State} {f : Fault} (h : microStep m s = .stop f) : f.ofEngine = true := by
  cases m with
  | start => exact launch_stop_ofEngine ((microStep_start s).symm.trans h)
  | stop => exact launch_stop_ofEngine ((microStep_stop s).symm.trans h)
  | xferAddr => exact launch_stop_ofEngine ((microStep_xferAddr s).symm.trans h)
  | sendByte d => exact launch_stop_ofEngine ((microStep_sendByte d s).symm.trans h)
  | sendImage i => exact launch_stop_ofEngine ((microStep_sendByte (s.img.read i.val) s).symm.trans h)
  | recv => exact launch_stop_ofEngine ((microStep_recv s).symm.trans h)
  | recvLast => exact launch_stop_ofEngine ((microStep_recvLast s).symm.trans h)
  | setAddr addr read =>
    simp only [microStep, loadAddress] at h
    split at h
    next hp => cases h; exact precheck_ofEngine hp
    next => cases h
  | requireEnabled cmd =>
    simp only [microStep] at h
    split at h <;> cases h
    rfl
  | awaitDone | awaitStop => exact absurd h (await_ne_stop _ _ _)
  | storeData | respondData => cases h

theorem runMicros_faulted_ofEngine {f : Fault} : ∀ {ms : List Micro} {s : State}, runMicros ms s = .faulted f →
    f.ofEngine = true
  | [], _, h => by cases h
  | m :: ms, s, h => by
    unfold runMicros at h
    cases hm : microStep m s with
    | go t => rw [hm] at h; exact runMicros_faulted_ofEngine h
    | park t => rw [hm] at h; cases h
    | stop g => rw [hm] at h; cases h; exact microStep_stop_ofEngine hm

theorem perform_ne_rangeError (ms : List Micro) (s : State) (start count : Byte) :
    perform ms s ≠ .fault (.rangeError start count) := by
  intro h
  obtain ⟨t, _, he⟩ | ⟨left, t, _, he⟩ | ⟨f, hf, he⟩ := perform_cases ms s <;> rw [he] at h <;> cases h
  have := runMicros_faulted_ofEngine hf
  cases this

/-- A range is valid when it is not empty and ends inside the image, the sum not wrapped (R60). -/
theorem validRange_iff (start count : Byte) :
    validRange start count = true ↔ 1 ≤ count.toNat ∧ start.toNat + count.toNat ≤ 19 := by
  simp [validRange]

/-- Settles O44: the range check is the first, and no step of a valid range raises `RangeError`. -/
theorem rangeErrorExactlyForInvalidRanges : Obligations.RangeErrorExactlyForInvalidRanges := by
  intro s start count
  rw [← validRange_iff]
  by_cases hv : validRange start count = true
  · rw [exec_refresh_of_valid hv, exec_commit_of_valid hv]
    simp [perform_ne_rangeError, hv]
  · simp [exec, execRefresh, execCommit, hv]

/-! ## Reset -/

/-- Settles O8: the fields of `State.reset`. -/
theorem resetLeavesTheDecidedValues : Obligations.ResetLeavesTheDecidedValues :=
  ⟨rfl, rfl, rfl, rfl, rfl, rfl, rfl, rfl, rfl, rfl, rfl, rfl⟩

/-- Whether or not a command is in progress, `rst` next is taken. -/
theorem step_of_rst {s : State} {slaves : Bool} {rest : List Event} (ha : s.agenda = .rst slaves :: rest) :
    step s = .next (blockReset slaves { s with agenda := rest }) := by
  unfold step turn
  split <;> simp [readyTurn, blockedTurn, ha]

/-- Settles O9: `rst` is taken at once, and `blockReset` gives the values of R40. -/
theorem rstInputResetsTheBlockOnly : Obligations.RstInputResetsTheBlockOnly := fun _ _ _ ha =>
  ⟨_, step_of_rst ha, rfl, rfl, rfl, rfl, rfl, rfl, rfl, rfl, rfl, rfl, rfl, rfl, rfl, rfl, rfl, rfl, rfl, rfl, rfl⟩

end Sys2Proof.Machine
end

section
/-! The Engine's turn (R120), its completions of an address phase, of a received byte and of a byte sent to the clock chip
(R122 to R125, R55 to R57), and the clock chip's own move (R58). -/

namespace Sys2Proof.Machine

/-! ## The Engine's turn -/

theorem engineReady_false_of_any {s : State} (h : s.en = false ∨ s.pend = none ∨ s.wedged = true) : engineReady s = false := by
  rcases h with h | h | h <;> simp [engineReady, h]

/-- The Engine's step with the response and the agenda set apart. -/
theorem engineStep_port (s : State) (y : List Event) :
    engineStep { s with agenda := y, rsp := none } = { engineStep s with agenda := y, rsp := none } := by
  refine (engineStep_withHost s none y s.todo).trans ?_
  simp only [State.withHost, (engineStep_frame s).todo]

theorem engineStep_rsp (s : State) (x : Option Byte) :
    engineStep { s with rsp := x } = { engineStep s with rsp := x } := by
  refine (engineStep_withHost s x s.agenda s.todo).trans ?_
  simp only [State.withHost, (engineStep_frame s).todo, (engineStep_frame s).agenda]

/-- Where the Engine has no step, or takes none, nothing is due. -/
theorem dueStep_of_no_step {s : State} (h : s.en = false ∨ s.pend = none ∨ s.wedged = true ∨ s.fair = false) :
    dueStep s = s := by
  cases hf : s.fair with
  | false => exact dueStep_of_not_fair hf
  | true =>
    rw [dueStep_of_fair hf]
    exact engineStep_of_not_ready (engineReady_false_of_any (by simpa [hf] using h))

theorem step_of_engine {s : State} {rest : List Event} (ht : s.todo = []) (ha : s.agenda = .engine :: rest) :
    step s = .next { engineStep s with agenda := rest, rsp := none } := by
  rw [← engineStep_port]
  simp [step, turn, State.cmdReady, ht, readyTurn, ha]

theorem step_of_no_move {s : State} (ht : s.todo = []) (ha : s.agenda = []) :
    step s = .next (dueStep { s with rsp := none }) := by
  simp [step, turn, State.cmdReady, ht, readyTurn, ha]

/-- Settles O25: at its turn the Engine takes `engineStep`, which is the completion of the pending phase exactly when it is
ready; a completion ends the phase or wedges. -/
theorem engineStepsExactlyWhenReady : Obligations.EngineStepsExactlyWhenReady := by
  refine ⟨fun s rest ht ha => ⟨fun hn => ?_, fun _ _ _ => step_of_engine ht ha⟩, fun s ht ha => ⟨fun hn => ?_, ?_⟩, ?_⟩
  · rw [step_of_engine ht ha, engineStep_of_not_ready (engineReady_false_of_any hn)]
  · rw [step_of_no_move ht ha]
    exact congrArg _ (dueStep_of_no_step (s := { s with rsp := none }) hn)
  · intro he hp hw hf
    rw [step_of_no_move ht ha, dueStep_of_fair (s := { s with rsp := none }) hf]
    exact congrArg _ (engineStep_rsp s none)
  · intro s he hp hw
    obtain ⟨p, hp⟩ := Option.ne_none_iff_exists'.mp hp
    rw [engineStep_of_pend he hw hp]
    cases completePhase_end p s with
    | completed _ _ _ _ h => exact .inl h
    | stopped _ _ _ h => exact .inl h
    | wedged hn hw _ _ hpend => exact .inr ⟨hn, hw, hpend⟩

/-! ## The completion of an address phase -/

/-- The codes of an address phase by direction and answer (R122). -/
theorem statusCode_addrStatus (read ack : Bool) :
    statusCode (addrStatus read ack) =
      if ack then (if read then 0x40 else 0x18) else (if read then 0x48 else 0x20) := by
  cases read <;> cases ack <;> rfl

theorem completeAddr_acked {s : State} (h : addrAnswer s (addressOf s.data) (directionOf s.data) = true) :
    completeAddr s =
      { s with
        sel := addressOf s.data, status := statusCode (addrStatus (directionOf s.data) true),
        bus := if directionOf s.data then .mr else .mt, done := true, pend := none, replies := s.replies.tail,
        history := .addr (addressOf s.data) (directionOf s.data) true :: s.history,
        chipPtrNext := !directionOf s.data && (addressOf s.data == s.params.addrClock) } := by
  simp only [completeAddr, h, if_true]
  rfl

theorem completeAddr_nacked {s : State} (h : addrAnswer s (addressOf s.data) (directionOf s.data) = false) :
    completeAddr s =
      { s with
        replies := s.replies.tail, history := .addr (addressOf s.data) (directionOf s.data) false :: s.history,
        chipPtrNext := false }.completeNacked (addrStatus (directionOf s.data) false) := by
  simp only [completeAddr, h, Bool.false_eq_true, if_false]
  rfl

/-- Settles O27: by the slave's answer, and for a NACK by `NACK_COMPLETES`. -/
theorem engineCompletesAddress : Obligations.EngineCompletesAddress := by
  intro s he hw hp
  rw [engineStep_of_pend he hw hp, completePhase]
  refine ⟨fun hack => ?_, fun hnack hc => ?_, fun hnack hc => ?_⟩
  · rw [completeAddr_acked hack, statusCode_addrStatus]
    rfl
  · rw [completeAddr_nacked hnack, completeNacked_of_completes _ (by exact hc), State.completeWith, statusCode_addrStatus]
    rfl
  · rw [completeAddr_nacked hnack, completeNacked_of_wedges _ (by exact hc)]
    rfl

/-! ## The completion of a received byte -/

theorem completeRx_withEnvOf (ack : Bool) (s : State) :
    (completeRx ack s).withEnvOf s =
      { s with data := readAnswer s ack }.completeWith (rxStatus ack) (if ack then s.bus else .mrLast) := by
  have henv : ({ (readAsked s ack) with data := readAnswer s ack } : State).withEnvOf s =
      { (readAsked s ack).withEnvOf s with data := readAnswer s ack } := rfl
  rw [completeRx, withEnvOf_completeWith, henv, (readAsked_block s ack).withEnvOf_eq]

/-- Settles O29: the block's part of both receive phases. -/
theorem engineCompletesReceive : Obligations.EngineCompletesReceive := by
  intro s he hw
  refine ⟨fun hp => ?_, fun hp => ?_⟩ <;> rw [engineStep_of_pend he hw hp, completePhase, completeRx_withEnvOf] <;> rfl

/-! ## The clock chip -/

theorem clockSelected_iff (s : State) : s.clockSelected = true ↔ s.sel = s.params.addrClock := beq_iff_eq

theorem mappedPtr_iff (p : Byte) : mappedPtr p = true ↔ p.toNat ≤ 0x12 := decide_eq_true_iff

/-- The first acknowledged byte of a write part is the chip's pointer (R55). -/
theorem chipTakes_pointer {s : State} (d : Byte) (h : s.chipPtrNext = true) :
    chipTakes s d = { s with ptr := d, chipPtrNext := false } := by
  simp [chipTakes, h]

/-- A later byte goes to `Chip[PTR]` and steps the pointer (R55, R57). -/
theorem chipTakes_data {s : State} (d : Byte) (h : s.chipPtrNext = false) (hp : s.ptr.toNat ≤ 0x12) :
    chipTakes s d = { s with chip := s.chip.write s.ptr.toNat d, ptr := nextPtr s.ptr } := by
  simp [chipTakes, h, (mappedPtr_iff _).mpr hp]

theorem writeAsked_taken {s : State} (d : Byte) (h : s.sel = s.params.addrClock) :
    writeAsked s d true = (chipTakes s d).dropReply.saw (.sent d true) := by
  simp [writeAsked, (clockSelected_iff s).mpr h]

/-- A byte to another slave, or one that is not acknowledged, is not the chip's (entry 6). -/
theorem writeAsked_untaken {s : State} (d : Byte) {ack : Bool} (h : s.sel ≠ s.params.addrClock ∨ ack = false) :
    writeAsked s d ack = s.dropReply.saw (.sent d ack) := by
  have : (ack && s.clockSelected) = false := by
    rcases h with h | h
    · simp [State.clockSelected, h]
    · simp [h]
  simp [writeAsked, this]

theorem completeNacked_chipPart (s : State) (c : StatusName) :
    (s.completeNacked c).ptr = s.ptr ∧ (s.completeNacked c).chip = s.chip ∧
      (s.completeNacked c).chipPtrNext = s.chipPtrNext := by
  unfold State.completeNacked
  split <;> exact ⟨rfl, rfl, rfl⟩

/-- The chip's part of a transmission is that of the byte's answer. -/
theorem completeTx_chipPart {s : State} {ack : Bool} (h : writeAnswer s s.data = ack) :
    (completeTx s).ptr = (writeAsked s s.data ack).ptr ∧ (completeTx s).chip = (writeAsked s s.data ack).chip ∧
      (completeTx s).chipPtrNext = (writeAsked s s.data ack).chipPtrNext := by
  cases ack with
  | true => rw [completeTx, if_pos h]; exact ⟨rfl, rfl, rfl⟩
  | false => rw [completeTx, if_neg (by simp [h])]; exact completeNacked_chipPart _ _

/-- Settles O31: by whose byte it is, by the answer, and by its place in the write part. -/
theorem clockChipTakesSentBytes : Obligations.ClockChipTakesSentBytes := by
  intro s he hw hp
  rw [engineStep_of_pend he hw hp, completePhase]
  refine ⟨fun hsel hack hfirst => ?_, fun hsel hack hlater hptr => ?_, fun huntaken => ?_⟩
  · obtain ⟨h1, h2, h3⟩ := completeTx_chipPart hack
    rw [h1, h2, h3, writeAsked_taken _ hsel, chipTakes_pointer _ hfirst]
    exact ⟨rfl, rfl, rfl⟩
  · obtain ⟨h1, h2, _⟩ := completeTx_chipPart hack
    rw [h1, h2, writeAsked_taken _ hsel, chipTakes_data _ hlater hptr]
    exact ⟨rfl, fun a => Memory.read_write _ _ _ _⟩
  · obtain ⟨h1, h2, h3⟩ := completeTx_chipPart (s := s) rfl
    rw [h1, h2, h3, writeAsked_untaken _ huntaken]
    exact ⟨rfl, rfl, rfl⟩

/-- Settles O32: the chip's move writes one byte of the chip. -/
theorem chipTimeChangesOneChipRegister : Obligations.ChipTimeChangesOneChipRegister := by
  intro s a v rest ht ha
  refine ⟨chipTimeMove a v { s with agenda := rest, rsp := none }, ?_, rfl, fun b => Memory.read_write _ _ _ _⟩
  simp [step, turn, State.cmdReady, ht, readyTurn, ha]

end Sys2Proof.Machine
end

section
/-! The awaits of a settled state: a WAIT or WAITSTOP that completes (R113, R114), a command that blocks where no Engine step
brings about what it awaits and then hangs (R8, R184), and RECV and RECVLAST (R118, R119). -/

namespace Sys2Proof.Machine

/-! ## The awaiting steps -/

/-- A condition that does not read the host's side of the state. -/
def HostFree (c : State → Bool) : Prop := ∀ (s : State) x y z, c (s.withHost x y z) = c s

/-- The step `m` awaits the condition `c` (R7). -/
structure AwaitsFor (m : Micro) (c : State → Bool) : Prop where
  step : ∀ s, microStep m s = await c s
  host : HostFree c

theorem exists_awaitsFor {m : Micro} (hm : m.awaits = true) : ∃ c, AwaitsFor m c := by
  cases m with
  | awaitDone => exact ⟨_, fun _ => rfl, fun _ _ _ _ => rfl⟩
  | awaitStop => exact ⟨_, fun _ => rfl, fun _ _ _ _ => rfl⟩
  | _ => cases hm

theorem awaitDone_awaits : AwaitsFor .awaitDone State.done := ⟨fun _ => rfl, fun _ _ _ _ => rfl⟩

theorem awaitStop_awaits : AwaitsFor .awaitStop (fun s => !s.stopreq) := ⟨fun _ => rfl, fun _ _ _ _ => rfl⟩

theorem microStep_requireEnabled {cmd : Instr} {s : State} (he : s.en = true) :
    microStep (.requireEnabled cmd) s = .go s := by
  simp [microStep, he]

theorem runMicros_requireEnabled {cmd : Instr} {ms : List Micro} {s : State} (he : s.en = true) :
    runMicros (.requireEnabled cmd :: ms) s = runMicros ms s :=
  runMicros_cons_go (microStep_requireEnabled he)

/-- A command that comes to an await in the state `t`, where neither the due step, to `u`, nor any later one ends the await,
blocks in `u` and hangs (R8). -/
theorem perform_hangs {m : Micro} {c : State → Bool} (hm : AwaitsFor m c) {ms left : List Micro} {s t u : State}
    (hrun : runMicros ms { s with rsp := none } = runMicros (m :: left) t) (hs : t.settled = true) (hr : t.rsp = none)
    (hc : c t = false) (hd : dueStep t = u) (hcu : c u = false) (hdu : dueStep u = u) :
    perform ms s = .next { u with todo := m :: left } ∧ Hangs { u with todo := m :: left } := by
  have hframe := hd ▸ dueStep_frame t
  have hsu : (u.withHost u.rsp u.agenda (m :: left)).settled = true := (settled_congr hframe.agenda).trans hs
  have hdv : dueStep (u.withHost u.rsp u.agenda (m :: left)) = u.withHost u.rsp u.agenda (m :: left) := by
    rw [dueStep_withHost, hdu]
  have hcv : c (u.withHost u.rsp u.agenda (m :: left)) = false := (hm.host u _ _ _).trans hcu
  have hpark : microStep m t = .park u := by
    rw [hm.step, await_park hs hc (hd.symm ▸ hcu), hd]
  have hpark' : microStep m (u.withHost u.rsp u.agenda (m :: left)) = .park (u.withHost u.rsp u.agenda (m :: left)) := by
    rw [hm.step, await_park hsu hcv (by rw [hdv]; exact hcv), hdv]
  refine ⟨perform_of_parked (left := m :: left) (t := u) ?_, hangs_of_park (left := left) rfl hsu (hframe.rsp.trans hr) hpark'⟩
  rw [hrun, runMicros, hpark]

/-! ## WAIT and WAITSTOP -/

section
variable {cmd : Instr} {m : Micro} {c : State → Bool} (hm : AwaitsFor m c) {s : State}

theorem perform_wait_disabled (m : Micro) (he : s.en = false) : perform [.requireEnabled cmd, m] s = .fault (.disabled cmd) :=
  perform_of_first_stop (by simp [microStep, he])

include hm

theorem perform_wait_at_once (he : s.en = true) (hc : c s = true) :
    perform [.requireEnabled cmd, m] s = .next (s.finish 0) := by
  have hgo : microStep m { s with rsp := none } = .go { s with rsp := none } := by
    rw [hm.step]
    exact await_of_holds ((hm.host s none s.agenda s.todo).trans hc)
  exact perform_of_done (s := s) (t := { s with rsp := none })
    ((runMicros_requireEnabled (s := { s with rsp := none }) he).trans (runMicros_cons_go hgo))

theorem perform_wait_engine (he : s.en = true) (hc : c s = false) (hs : s.served = true) (hc' : c (engineStep s) = true) :
    perform [.requireEnabled cmd, m] s = .next ((engineStep s).finish 0) := by
  have hgo : microStep m { s with rsp := none } = .go { engineStep s with rsp := none } := by
    rw [hm.step, ← engineStep_rsp]
    refine await_go ((served_congr rfl rfl).trans hs) ((hm.host s none s.agenda s.todo).trans hc) ?_
    rw [engineStep_rsp]
    exact (hm.host (engineStep s) none _ _).trans hc'
  exact perform_of_done (s := s) (t := { engineStep s with rsp := none })
    ((runMicros_requireEnabled (s := { s with rsp := none }) he).trans (runMicros_cons_go hgo))

theorem perform_wait_hangs {u : State} (he : s.en = true) (hc : c s = false) (hs : s.settled = true) (hd : dueStep s = u)
    (hcu : c u = false) (hdu : dueStep u = u) :
    perform [.requireEnabled cmd, m] s = .next { u with todo := [m], rsp := none } ∧
      Hangs { u with todo := [m], rsp := none } := by
  have hframe := hd ▸ dueStep_frame s
  have hdue : dueStep (s.withHost none s.agenda s.todo) = u.withHost none u.agenda u.todo := by
    rw [dueStep_withHost, hd, hframe.agenda, hframe.todo]
  exact perform_hangs hm (t := s.withHost none s.agenda s.todo)
    (runMicros_requireEnabled (s := s.withHost none s.agenda s.todo) he) ((settled_congr rfl).trans hs) rfl
    ((hm.host _ _ _ _).trans hc) hdue ((hm.host _ _ _ _).trans hcu) (by rw [dueStep_withHost, hdu])

end

/-- Settles O23: WAIT is the check of `EN` and the await of `DONE`. -/
theorem waitCompletesWithThePhase : Obligations.WaitCompletesWithThePhase := fun _ =>
  ⟨perform_wait_disabled .awaitDone, perform_wait_at_once awaitDone_awaits, perform_wait_engine awaitDone_awaits⟩

/-- Settles O24: WAITSTOP is the check of `EN` and the await of `STOPREQ = 0`. -/
theorem waitstopCompletesWithTheStop : Obligations.WaitstopCompletesWithTheStop := fun _ =>
  ⟨perform_wait_disabled .awaitStop, fun he hq => perform_wait_at_once awaitStop_awaits he (by simp [hq]),
    fun he hq hs hq' => perform_wait_engine awaitStop_awaits he (by simp [hq]) hs (by simp [hq'])⟩

/-- Settles O35: with no Engine step due the await never ends. -/
theorem waitWithoutEngineStepHangs : Obligations.WaitWithoutEngineStepHangs := by
  intro s he hs hn
  have hd := dueStep_of_no_step (s := s) (.inr hn)
  exact ⟨fun hdone => perform_wait_hangs awaitDone_awaits he hdone hs hd hdone hd,
    fun hq => perform_wait_hangs awaitStop_awaits he (by simp [hq]) hs hd (by simp [hq]) hd⟩

/-- Settles O36: the STOP completes with `DONE` still 0, and then nothing is pending. -/
theorem waitAfterStopHangs : Obligations.WaitAfterStopHangs := by
  intro s he hw hdone hs hp
  obtain ⟨hsettled, hf⟩ := (served_iff s).mp hs
  have hd : dueStep s = completeStop s := (dueStep_of_fair hf).trans (engineStep_of_pend he hw hp)
  have hdu : dueStep (completeStop s) = completeStop s := dueStep_of_no_step (.inr (.inl rfl))
  obtain ⟨hexec, hhangs⟩ := perform_wait_hangs (cmd := .wait) awaitDone_awaits he hdone hsettled hd hdone hdu
  exact ⟨_, hexec, rfl, rfl, rfl, rfl, hdone, hhangs⟩

/-! ## A phase that the awaited Engine step completes -/

section
variable {m : Micro} {cmd : Instr} {p : Phase} {prep : State → State} (hm : ∀ s, microStep m s = launch cmd p prep s)

include hm in
theorem runMicros_launch {ms : List Micro} {s : State} (hs : s.quiet = true) (hl : legality p s.bus = .ok) :
    runMicros (m :: ms) s = runMicros ms ((prep s).issue p) := by
  obtain ⟨he, hp, hq, _⟩ := (quiet_iff s).mp hs
  exact runMicros_cons_go ((hm s).trans (launch_ok he ((busy_false_iff s).mpr ⟨hp, hq⟩) hl))

include hm in
theorem runMicros_launch_wedge {ms : List Micro} {s : State} (hs : s.quiet = true) (hl : legality p s.bus = .wedge) :
    runMicros (m :: ms) s = runMicros ms ((prep s).issue p).wedge := by
  obtain ⟨he, hp, hq, _⟩ := (quiet_iff s).mp hs
  exact runMicros_cons_go ((hm s).trans (launch_wedge he ((busy_false_iff s).mpr ⟨hp, hq⟩) hl))

end

/-- An await of `DONE` in a served state gets the completion of the phase just issued. -/
theorem runMicros_awaitDone {p : Phase} {ms : List Micro} {s : State} (he : s.en = true) (hw : s.wedged = false)
    (hs : s.served = true) (hdone : (completePhase p (s.issue p)).done = true) :
    runMicros (.awaitDone :: ms) (s.issue p) = runMicros ms (completePhase p (s.issue p)) := by
  have hstep : engineStep (s.issue p) = completePhase p (s.issue p) := engineStep_of_pend he hw rfl
  refine runMicros_cons_go ((await_go (c := State.done) (s := s.issue p) ((served_congr rfl rfl).trans hs) rfl ?_).trans ?_)
  · rw [hstep]; exact hdone
  · rw [hstep]

/-! ## RECV and RECVLAST -/

/-- The completion of a byte from the clock chip (R56). -/
theorem completeRx_chip (ack : Bool) {s : State} (hsel : s.sel = s.params.addrClock) (hptr : s.ptr.toNat ≤ 0x12) :
    completeRx ack s =
      { s with
        data := s.chip.read s.ptr.toNat, status := statusCode (rxStatus ack), bus := if ack then s.bus else .mrLast,
        done := true, pend := none, ptr := nextPtr s.ptr,
        history := .received (s.chip.read s.ptr.toNat) ack :: s.history } := by
  have hc := (clockSelected_iff s).mpr hsel
  have hm := (mappedPtr_iff s.ptr).mpr hptr
  simp [completeRx, readAsked, readAnswer, hc, hm, State.completeWith, State.saw]

/-- The completion of a byte from another slave (R52). -/
theorem completeRx_other (ack : Bool) {s : State} {r : Reply} {rs : List Reply} (hsel : s.sel ≠ s.params.addrClock)
    (hrep : s.replies = r :: rs) :
    completeRx ack s =
      { s with
        data := r.data, status := statusCode (rxStatus ack), bus := if ack then s.bus else .mrLast,
        done := true, pend := none, replies := rs, history := .received r.data ack :: s.history } := by
  have hc : s.clockSelected = false := by simpa [State.clockSelected] using hsel
  simp [completeRx, readAsked, readAnswer, freeByte, hc, hrep, State.completeWith, State.saw, State.dropReply]

/-- A receive in a quiet, served state returns the byte of its completion. -/
theorem perform_receive {m : Micro} {cmd : Instr} {ack k : Bool} {p : Phase}
    (hm : ∀ s, microStep m s = launch cmd p (fun s => { s with acken := k }) s) (hp : ∀ s, completePhase p s = completeRx ack s)
    {s t : State} (hq : s.quiet = true) (hs : s.served = true) (hl : legality p s.bus = .ok)
    (ht : completeRx ack ({ s with rsp := none, acken := k }.issue p) = t) :
    perform [m, .awaitDone, .respondData] s = .next (t.finish t.data) := by
  obtain ⟨he, _, _, hw⟩ := (quiet_iff s).mp hq
  have hrun : runMicros [m, .awaitDone, .respondData] { s with rsp := none } = .done { t with rsp := some t.data } := by
    rw [runMicros_launch hm (s := { s with rsp := none }) hq hl,
      runMicros_awaitDone (s := { s with rsp := none, acken := k }) he hw ((served_congr rfl rfl).trans hs) (by rw [hp]; rfl),
      hp, ht]
    rfl
  exact perform_of_done hrun

/-- Settles O20: the phase `RxAck` with the clock chip selected. -/
theorem recvReturnsTheChipByte : Obligations.RecvReturnsTheChipByte := by
  intro s hq hs hbus hsel hptr
  obtain ⟨_, hp, _, _⟩ := (quiet_iff s).mp hq
  refine (perform_receive microStep_recv (fun _ => rfl) hq hs (by rw [hbus]; rfl) (completeRx_chip true hsel hptr)).trans ?_
  simp only [State.issue, State.finish, hp]
  rfl

/-- Settles O21: the phase `RxNack` with the clock chip selected. -/
theorem recvlastReturnsTheChipByte : Obligations.RecvlastReturnsTheChipByte := by
  intro s hq hs hbus hsel hptr
  obtain ⟨_, hp, _, _⟩ := (quiet_iff s).mp hq
  refine (perform_receive microStep_recvLast (fun _ => rfl) hq hs (by rw [hbus]; rfl) (completeRx_chip false hsel hptr)).trans ?_
  simp only [State.issue, State.finish, hp]
  rfl

/-- Settles O22: both phases with another slave selected, whose next answer is the byte. -/
theorem receiveFromAnotherSlave : Obligations.ReceiveFromAnotherSlave := by
  intro s r rs hq hs hbus hsel hrep
  obtain ⟨_, hp, _, _⟩ := (quiet_iff s).mp hq
  constructor
  · refine (perform_receive microStep_recv (fun _ => rfl) hq hs (by rw [hbus]; rfl) (completeRx_other true hsel hrep)).trans ?_
    simp only [State.issue, State.finish, hp]
    rfl
  · refine (perform_receive microStep_recvLast (fun _ => rfl) hq hs (by rw [hbus]; rfl)
      (completeRx_other false hsel hrep)).trans ?_
    simp only [State.issue, State.finish, hp]
    rfl

/-- Settles O37: a receive from `Nacked` wedges (R128), so no Engine step ends its await. -/
theorem receiveAfterNackHangs : Obligations.ReceiveAfterNackHangs := by
  intro s hq hbus hs
  constructor
  · obtain ⟨he, hh⟩ := perform_hangs awaitDone_awaits
      (runMicros_launch_wedge microStep_recv (s := { s with rsp := none }) hq (by rw [hbus]; rfl))
      ((settled_congr rfl).trans hs) rfl rfl (dueStep_of_no_step (.inr (.inr (.inl rfl)))) rfl
      (dueStep_of_no_step (.inr (.inr (.inl rfl))))
    exact ⟨_, he, rfl, rfl, rfl, rfl, hh⟩
  · obtain ⟨he, hh⟩ := perform_hangs awaitDone_awaits
      (runMicros_launch_wedge microStep_recvLast (s := { s with rsp := none }) hq (by rw [hbus]; rfl))
      ((settled_congr rfl).trans hs) rfl rfl (dueStep_of_no_step (.inr (.inr (.inl rfl)))) rfl
      (dueStep_of_no_step (.inr (.inr (.inl rfl))))
    exact ⟨_, he, rfl, rfl, rfl, rfl, hh⟩

end Sys2Proof.Machine
end

section
/-! The command in progress (R36, R133): the steps of an expansion do not read the agenda or the steps left but at their awaits,
so that a command an idle moment blocked goes on as if that moment had not been there. -/

namespace Sys2Proof.Machine

/-! ## The queues of a state: the agenda and the steps left -/

/-- An update of the agenda alone, or of the steps left alone. -/
inductive QueueUpdate : (State → State) → Prop where
  | agenda (y : List Event) : QueueUpdate (fun s => { s with agenda := y })
  | todo (z : List Micro) : QueueUpdate (fun s => { s with todo := z })

/-- The outcome of a step, its state changed by `g`. -/
def Progress.map (g : State → State) : Progress → Progress
  | .go s => .go (g s)
  | .park s => .park (g s)
  | .stop r => .stop r

section
variable {g : State → State} (hg : QueueUpdate g)
include hg

theorem QueueUpdate.engineStep (s : State) : engineStep (g s) = g (engineStep s) := by
  cases hg with
  | agenda y =>
    refine (engineStep_withHost s s.rsp y s.todo).trans ?_
    simp only [State.withHost, (engineStep_frame s).rsp, (engineStep_frame s).todo]
  | todo z =>
    refine (engineStep_withHost s s.rsp s.agenda z).trans ?_
    simp only [State.withHost, (engineStep_frame s).rsp, (engineStep_frame s).agenda]

theorem QueueUpdate.dueStep (s : State) : dueStep (g s) = g (dueStep s) := by
  have hfair : (g s).fair = s.fair := by cases hg <;> rfl
  unfold Machine.dueStep
  rw [hfair, hg.engineStep]
  split <;> rfl

theorem QueueUpdate.hostFree {c : State → Bool} (hc : HostFree c) (s : State) : c (g s) = c s := by
  cases hg with
  | agenda y => exact hc s s.rsp y s.todo
  | todo z => exact hc s s.rsp s.agenda z

theorem QueueUpdate.awaitEngine {c : State → Bool} (hc : HostFree c) (s : State) :
    awaitEngine c (g s) = (awaitEngine c s).map g := by
  unfold Machine.awaitEngine
  rw [hg.dueStep, hg.hostFree hc]
  split <;> rfl

theorem QueueUpdate.launch (cmd : Instr) (p : Phase) {prep : State → State} {s : State} (hprep : prep (g s) = g (prep s)) :
    launch cmd p prep (g s) = (launch cmd p prep s).map g := by
  have hpre : precheck cmd (g s) = precheck cmd s := by cases hg <;> rfl
  have hbus : (g s).bus = s.bus := by cases hg <;> rfl
  have hissue (u : State) : (g u).issue p = g (u.issue p) := by cases hg <;> rfl
  have hwedge (u : State) : (g u).wedge = g u.wedge := by cases hg <;> rfl
  unfold Machine.launch
  rw [hpre, hbus, hprep]
  cases precheck cmd s with
  | some f => rfl
  | none => cases legality p s.bus <;> simp only [Progress.map, hissue, hwedge]

/-- A prompt step does not read the queues and keeps them. -/
theorem QueueUpdate.microStep {m : Micro} (hm : m.awaits = false) (s : State) :
    microStep m (g s) = (microStep m s).map g := by
  cases m with
  | start | stop | xferAddr | sendByte | sendImage | recv | recvLast =>
    have himg : (g s).img = s.img := by cases hg <;> rfl
    simp only [Machine.microStep, launchStart, launchStop, launchAddr, launchTx, launchRx, launchRxLast, himg]
    exact hg.launch _ _ (by cases hg <;> rfl)
  | setAddr addr read =>
    have hpre : precheck (.setaddr addr read) (g s) = precheck (.setaddr addr read) s := by cases hg <;> rfl
    simp only [Machine.microStep, loadAddress, hpre]
    cases precheck (.setaddr addr read) s with
    | some f => rfl
    | none => cases hg <;> rfl
  | requireEnabled cmd =>
    have hen : (g s).en = s.en := by cases hg <;> rfl
    simp only [Machine.microStep, hen]
    split <;> rfl
  | storeData | respondData => cases hg <;> rfl
  | awaitDone | awaitStop => cases hm

end

/-! ## The awaits and the queues -/

theorem awaitFrom_of_holds {c : State → Bool} (l : List Event) {s : State} (h : c s = true) : awaitFrom c l s = .go { s with agenda := l } := by
  cases l <;> simp [awaitFrom, h]

/-! An await that does not hold, by the move that is next. -/

section
variable {c : State → Bool} {s : State} (h : c s = false) (rest : List Event)
include h

theorem awaitFrom_engine : awaitFrom c (.engine :: rest) s = awaitFrom c rest (engineStep s) := by simp [awaitFrom, h]

theorem awaitFrom_chipTime (a : ImgIdx) (v : Byte) :
    awaitFrom c (.chipTime a v :: rest) s = awaitFrom c rest (chipTimeMove a v s) := by simp [awaitFrom, h]

theorem awaitFrom_idle : awaitFrom c (.idle :: rest) s = .park { s with agenda := .idle :: rest } := by simp [awaitFrom, h]

theorem awaitFrom_rst (p : Bool) : awaitFrom c (.rst p :: rest) s = .park { s with agenda := .rst p :: rest } := by
  simp [awaitFrom, h]

theorem awaitFrom_cmd (hc : HostFree c) (w : CmdWord) :
    awaitFrom c (.cmd w :: rest) s = (awaitEngine c s).map (fun t => { t with agenda := .cmd w :: rest }) := by
  rw [← (QueueUpdate.agenda (.cmd w :: rest)).awaitEngine hc s]
  simp [awaitFrom, h]

end

section
variable {c : State → Bool} (hc : HostFree c)
include hc

/-- An await takes its moves from the list it is given; the agenda of the state is not read. -/
theorem awaitFrom_withAgenda (y : List Event) (l : List Event) (s : State) :
    awaitFrom c l { s with agenda := y } = awaitFrom c l s := by
  have hcond (s : State) : c { s with agenda := y } = c s := (QueueUpdate.agenda y).hostFree hc s
  induction l generalizing s with
  | nil => simp only [awaitFrom, hcond]
  | cons e rest ih =>
    simp only [awaitFrom, hcond]
    split
    · rfl
    · cases e with
      | engine => rw [(QueueUpdate.agenda y).engineStep, ih]
      | chipTime a v => exact ih (chipTimeMove a v s)
      | cmd | idle | rst => rfl

theorem await_withAgenda (s : State) (y : List Event) : await c { s with agenda := y } = awaitFrom c y s :=
  awaitFrom_withAgenda hc y y s

theorem awaitFrom_withTodo (z : List Micro) (l : List Event) (s : State) :
    awaitFrom c l { s with todo := z } = (awaitFrom c l s).map (fun t => { t with todo := z }) := by
  have hcond (s : State) : c { s with todo := z } = c s := (QueueUpdate.todo z).hostFree hc s
  have hlast (l : List Event) (s : State) := (QueueUpdate.todo z).awaitEngine hc { s with agenda := l }
  induction l generalizing s with
  | nil =>
    simp only [awaitFrom, hcond]
    split
    · rfl
    · exact hlast [] s
  | cons e rest ih =>
    simp only [awaitFrom, hcond]
    split
    · rfl
    · cases e with
      | cmd w => exact hlast (.cmd w :: rest) s
      | engine => rw [(QueueUpdate.todo z).engineStep, ih]
      | chipTime a v => exact ih (chipTimeMove a v s)
      | idle | rst => rfl

/-- An await that goes on beyond an idle moment still to come, or blocks at it, does what it does without that moment. -/
theorem awaitFrom_skip {after : List Event} (before : List Event) (s : State) :
    (∀ t, awaitFrom c (before ++ .idle :: after) s = .go t → ∃ b, t.agenda = b ++ .idle :: after ∧
      awaitFrom c (before ++ after) s = .go { t with agenda := b ++ after }) ∧
    (∀ t, awaitFrom c (before ++ .idle :: after) s = .park t → t.agenda = .idle :: after →
      awaitFrom c (before ++ after) s = awaitFrom c after t) := by
  induction before generalizing s with
  | nil =>
    simp only [List.nil_append]
    cases h : c s with
    | true =>
      rw [awaitFrom_of_holds _ h, awaitFrom_of_holds _ h]
      exact ⟨fun t ht => (by cases ht; exact ⟨[], rfl, rfl⟩), fun t ht => (by cases ht)⟩
    | false =>
      rw [awaitFrom_idle h]
      refine ⟨fun t ht => (by cases ht), fun t ht _ => ?_⟩
      cases ht
      exact (awaitFrom_withAgenda hc _ after s).symm
  | cons e b ih =>
    simp only [List.cons_append]
    cases h : c s with
    | true =>
      rw [awaitFrom_of_holds _ h, awaitFrom_of_holds _ h]
      exact ⟨fun t ht => (by cases ht; exact ⟨e :: b, rfl, rfl⟩), fun t ht => (by cases ht)⟩
    | false =>
      cases e with
      | engine =>
        rw [awaitFrom_engine h, awaitFrom_engine h]
        exact ih (engineStep s)
      | chipTime a v =>
        rw [awaitFrom_chipTime h, awaitFrom_chipTime h]
        exact ih (chipTimeMove a v s)
      | cmd w =>
        rw [awaitFrom_cmd h _ hc, awaitFrom_cmd h _ hc]
        cases awaitEngine c s with
        | go u => exact ⟨fun t ht => (by cases ht; exact ⟨.cmd w :: b, rfl, rfl⟩), fun t ht => (by cases ht)⟩
        | park u => exact ⟨fun t ht => (by cases ht), fun t ht hidle => (by cases ht; cases hidle)⟩
        | stop f => exact ⟨fun t ht => (by cases ht), fun t ht => (by cases ht)⟩
      | idle =>
        rw [awaitFrom_idle h]
        refine ⟨fun t ht => (by cases ht), fun t ht hidle => ?_⟩
        cases ht
        have hlength := congrArg List.length (List.cons.inj hidle).2
        simp at hlength
        omega
      | rst p =>
        rw [awaitFrom_rst h]
        exact ⟨fun t ht => (by cases ht), fun t ht hidle => (by cases ht; cases hidle)⟩

end

/-! ## The steps of an expansion and an idle moment -/

theorem microStep_withTodo (m : Micro) (s : State) (z : List Micro) :
    microStep m { s with todo := z } = (microStep m s).map (fun t => { t with todo := z }) := by
  cases hm : m.awaits with
  | false => exact (QueueUpdate.todo z).microStep hm s
  | true =>
    obtain ⟨c, hc⟩ := exists_awaitsFor hm
    rw [hc.step, hc.step]
    exact awaitFrom_withTodo hc.host z s.agenda s

theorem microStep_skip (m : Micro) {s : State} {before after : List Event} (ha : s.agenda = before ++ .idle :: after) :
    (∀ t, microStep m s = .go t → ∃ b, t.agenda = b ++ .idle :: after ∧
      microStep m { s with agenda := before ++ after } = .go { t with agenda := b ++ after }) ∧
    (∀ t, microStep m s = .park t → t.agenda = .idle :: after →
      microStep m { s with agenda := before ++ after } = microStep m { t with agenda := after }) := by
  cases hm : m.awaits with
  | false =>
    refine ⟨fun t ht => ⟨before, ?_, ?_⟩, fun t ht => absurd ht (microStep_ne_park hm s t)⟩
    · cases PromptStep.of_microStep hm ht <;> exact ha
    · rw [(QueueUpdate.agenda (before ++ after)).microStep hm, ht]; rfl
  | true =>
    obtain ⟨c, hc⟩ := exists_awaitsFor hm
    have hskip := awaitFrom_skip (after := after) hc.host before s
    have hs : microStep m s = awaitFrom c (before ++ .idle :: after) s := by rw [hc.step, await, ha]
    have hagenda (u : State) (y : List Event) : microStep m { u with agenda := y } = awaitFrom c y u :=
      (hc.step _).trans (await_withAgenda hc.host u y)
    rw [hs, hagenda]
    refine ⟨hskip.1, fun t ht hidle => ?_⟩
    rw [hagenda]
    exact hskip.2 t ht hidle

/-- An expansion that an idle moment blocks goes on, without that moment, with the steps it has left. -/
theorem runMicros_skip {after : List Event} {left : List Micro} {t : State} (hidle : t.agenda = .idle :: after) :
    ∀ {ms : List Micro} {s : State} {before : List Event}, s.agenda = before ++ .idle :: after →
      runMicros ms s = .parked left t →
      runMicros ms { s with agenda := before ++ after } = runMicros left { t with agenda := after }
  | [], _, _, _, h => by cases h
  | m :: ms, s, before, ha, h => by
    obtain ⟨hgo, hpark⟩ := microStep_skip m ha
    unfold runMicros at h
    cases hm : microStep m s with
    | go u =>
      rw [hm] at h
      obtain ⟨b, hb, htwin⟩ := hgo u hm
      rw [runMicros_cons_go htwin]
      exact runMicros_skip hidle hb h
    | park u =>
      rw [hm] at h
      cases h
      simp only [runMicros, hpark t hm hidle]
    | stop f => rw [hm] at h; cases h

/-- The outcome of an expansion, its state changed by `g`. -/
def RunResult.map (g : State → State) : RunResult → RunResult
  | .done s => .done (g s)
  | .parked left s => .parked left (g s)
  | .faulted f => .faulted f

/-- An expansion does not read the steps left of a command in progress. -/
theorem runMicros_withTodo (z : List Micro) : ∀ (ms : List Micro) (s : State),
    runMicros ms { s with todo := z } = (runMicros ms s).map (fun t => { t with todo := z })
  | [], _ => rfl
  | m :: ms, s => by
    simp only [runMicros, microStep_withTodo]
    cases microStep m s with
    | go t => exact runMicros_withTodo z ms t
    | park t => rfl
    | stop f => rfl

theorem perform_congr {ms ns : List Micro} {s t : State}
    (h : runMicros ms { s with rsp := none } = runMicros ns { t with rsp := none }) : perform ms s = perform ns t := by
  unfold perform
  rw [h]

/-- A command is performed alike whatever the response port and the steps left of the command before hold. -/
theorem perform_withPort (ms : List Micro) (s : State) (x : Option Byte) (z : List Micro) :
    perform ms { s with rsp := x, todo := z } = perform ms s := by
  unfold perform
  rw [runMicros_withTodo z ms { s with rsp := none }]
  cases runMicros ms { s with rsp := none } <;> rfl

/-- An expansion that blocks before its response has the port as it was. -/
theorem runMicros_parked_rsp {left : List Micro} {t : State} :
    ∀ {ms : List Micro} {s : State}, .respondData ∉ ms.dropLast → runMicros ms s = .parked left t → t.rsp = s.rsp
  | [], _, _, h => by cases h
  | m :: ms, s, hms, h => by
    have hagents : KeptByAgents (fun u => u.rsp = s.rsp) :=
      ⟨fun {u} hu => (engineStep_frame u).rsp.trans hu, fun _ _ _ hu => hu, fun _ _ hu => hu⟩
    have hstep (hm : m ≠ .respondData) := hagents.microStep (m := m) (fun {u w} hu hp => by
      cases hp with
      | responded _ hr => exact absurd hr hm
      | _ => exact hu) (s := s) rfl
    unfold runMicros at h
    cases hm : microStep m s with
    | go u =>
      rw [hm] at h
      cases ms with
      | nil => cases h
      | cons n ns =>
        rw [List.dropLast_cons_cons, List.mem_cons, not_or] at hms
        exact (runMicros_parked_rsp hms.2 h).trans ((hstep (Ne.symm hms.1)).1 u hm)
    | park u =>
      rw [hm] at h
      cases h
      refine (hstep ?_).2 t hm
      rintro rfl
      cases hm
    | stop f => rw [hm] at h; cases h

/-! ## The turns of a command in progress -/

theorem step_of_idle_in_progress {s : State} {rest : List Event} (ht : s.todo ≠ []) (ha : s.agenda = .idle :: rest) :
    step s = .next { s with agenda := rest, rsp := none } := by
  simp [step, turn, State.cmdReady, ht, blockedTurn, ha]

theorem step_in_progress {s : State} (ht : s.todo ≠ []) (ha : interrupts s.agenda = false) : step s = perform s.todo s := by
  obtain ⟨h, _⟩ | ⟨_, _, h, _⟩ | ⟨_, h, _⟩ | ⟨_, _, _, h, _⟩ | ⟨_, h, _⟩ | ⟨_, _, h, _⟩ | ⟨_, _, _, h⟩ := step_cases s
  case inr.inr.inr.inr.inr.inr => exact h
  case inr.inr.inr.inr.inl | inr.inr.inr.inr.inr.inl => rw [h] at ha; cases ha
  all_goals exact absurd h ht

/-- Idle moments pass over a command in progress. -/
theorem run_of_idle_in_progress (n : Nat) (s : State) (rest : List Event) (ht : s.todo ≠ []) (hr : s.rsp = none)
    (ha : s.agenda = List.replicate n .idle ++ rest) :
    Host.Core.run Sys2Proof.core n s = .next { s with agenda := rest } := by
  induction n generalizing s with
  | zero =>
    rw [← show s.agenda = rest from ha]
    rfl
  | succ n ih =>
    have hstep : Sys2Proof.core.step s = .next { s with agenda := List.replicate n .idle ++ rest, rsp := none } :=
      step_of_idle_in_progress ht (by rw [ha, List.replicate_succ, List.cons_append])
    simp only [Host.Core.run, hstep]
    exact (ih { s with agenda := List.replicate n .idle ++ rest, rsp := none } ht rfl rfl).trans (by rw [← hr])

/-- At the Engine's move the command goes on with the steps left after its await, where that move ends the await. -/
theorem step_of_engine_in_progress {m : Micro} {c : State → Bool} (hm : AwaitsFor m c) {s : State} {rest : List Event}
    {left : List Micro} (ha : s.agenda = .engine :: rest) (ht : s.todo = m :: left) (hc : c s = false)
    (hc' : c (engineStep s) = true) : step s = perform left { engineStep s with agenda := rest } := by
  have hstep : step s = perform (m :: left) s := by
    rw [step_in_progress (by simp [ht]) (by simp [ha, interrupts]), ht]
  have hgo : microStep m { s with rsp := none } = .go { engineStep s with rsp := none, agenda := rest } := by
    have h0 : c { s with rsp := none } = false := (hm.host s none _ _).trans hc
    have h1 : c (engineStep { s with rsp := none }) = true := by
      rw [engineStep_rsp]; exact (hm.host (engineStep s) none _ _).trans hc'
    calc microStep m { s with rsp := none }
        = awaitFrom c s.agenda { s with rsp := none } := hm.step _
      _ = awaitFrom c (.engine :: rest) { s with rsp := none } := congrArg (awaitFrom c · _) ha
      _ = awaitFrom c rest (engineStep { s with rsp := none }) := awaitFrom_engine h0 rest
      _ = _ := by rw [awaitFrom_of_holds rest h1, engineStep_rsp]
  rw [hstep]
  exact perform_congr (runMicros_cons_go hgo)

/-- A command that an idle moment blocks stays so at that moment, and then does what it does without it. -/
theorem step_after_idle_moment {i : Instr} {s t : State} {before after : List Event}
    (ha : s.agenda = before ++ .idle :: after) (he : exec i s = .next t) (hr : t.cmdReady = false)
    (hidle : t.agenda = .idle :: after) (hafter : interrupts after = false) :
    step t = .next { t with agenda := after } ∧
      step { t with agenda := after } = exec i { s with agenda := before ++ after } := by
  obtain ⟨ms, hms⟩ | ⟨f, hf⟩ | ⟨u, v, _, hu⟩ := exec_cases i s
  case inr.inl => rw [hf] at he; cases he
  case inr.inr => rw [hu] at he; cases he; cases hr
  case inl =>
    rw [hms.exec_eq] at he
    obtain ⟨u, _, hp⟩ | ⟨left, u, hu, hp⟩ | ⟨f, _, hp⟩ := perform_cases ms s <;> rw [hp] at he <;> cases he
    case inl => cases hr
    case inr.inl =>
      have hrsp : u.rsp = none := runMicros_parked_rsp (s := { s with rsp := none }) hms.responds hu
      have hne : left ≠ [] := runMicros_parked_ne_nil ms hu
      have hskip := runMicros_skip (s := { s with rsp := none }) (t := u) hidle ha hu
      constructor
      · rw [step_of_idle_in_progress hne hidle, hrsp]
      · rw [hms.exec, step_in_progress (s := { u with todo := left, agenda := after }) hne hafter]
        refine (perform_withPort left { u with agenda := after } u.rsp left).trans (perform_congr ?_)
        have hport : ({ u with agenda := after, rsp := none } : State) = { u with agenda := after } := by rw [← hrsp]
        exact (congrArg (runMicros left) hport).trans hskip.symm

/-- Settles O38: the idle moments, the Engine's move for each of the awaits, and the command an idle moment blocked. -/
theorem commandInProgressOutlastsIdleMomentsAndResumes : Obligations.CommandInProgressOutlastsIdleMomentsAndResumes := by
  have hdone {s : State} {rest : List Event} {left : List Micro} (ha : s.agenda = .engine :: rest)
      (ht : s.todo = .awaitDone :: left) (hd : s.done = false) (hd' : (engineStep s).done = true) :=
    step_of_engine_in_progress awaitDone_awaits ha ht hd hd'
  have hstop {s : State} {rest : List Event} {left : List Micro} (ha : s.agenda = .engine :: rest)
      (ht : s.todo = .awaitStop :: left) (hq : s.stopreq = true) (hq' : (engineStep s).stopreq = false) :=
    step_of_engine_in_progress awaitStop_awaits ha ht (by simp [hq]) (by simp [hq'])
  exact ⟨run_of_idle_in_progress, fun s rest left ha => ⟨hdone ha, hstop ha⟩,
    fun s rest ha => ⟨hdone ha, hstop ha, hdone ha⟩, fun i s t before after => step_after_idle_moment⟩

end Sys2Proof.Machine
end

section
/-! The laws of the field accessors (R150 to R152) and SETBCD (R94, R172): what GETF answers after a SETF, bit by bit. -/

namespace Sys2Proof.Machine

/-! ## A field read after a field written, in one byte -/

/-- A field reads back the value written, where the value has no bit beyond the byte. -/
theorem extractField_insertField {d : FieldDesc} {v : Byte} (x : Byte) (hv : v.toNat < 2 ^ d.width)
    (hbyte : v.toNat < 2 ^ (8 - d.lsb)) : extractField d (insertField d x v) = v := by
  apply BitVec.eq_of_getLsbD_eq
  intro k hk
  rw [getLsbD_extractField d _ k hk]
  by_cases hin : k < d.width ∧ d.lsb + k < 8
  · rw [getLsbD_insertField d x v _ hin.2 hv, if_pos (by omega)]
    simp [hin.1]
  · have hzero : v.getLsbD k = false := by
      by_cases hw : k < d.width
      · exact getLsbD_of_lt_two_pow hbyte (by omega)
      · exact getLsbD_of_lt_two_pow hv (by omega)
    by_cases hw : k < d.width
    · simp [hzero, BitVec.getLsbD_of_ge _ (d.lsb + k) (show 8 ≤ d.lsb + k by omega)]
    · simp [hzero, hw]

/-- Writing back what a field reads changes no bit. -/
theorem insertField_extractField (d : FieldDesc) (x : Byte) : insertField d x (extractField d x) = x := by
  apply BitVec.eq_of_getLsbD_eq
  intro k hk
  rw [getLsbD_insertField d x _ k hk (extractField_lt d x)]
  split
  next hin =>
    rw [getLsbD_extractField d x _ (by omega), show d.lsb + (k - d.lsb) = k by omega]
    simp [show k - d.lsb < d.width by omega]
  next => rfl

/-- A field that shares no bit with the one written reads as before. -/
theorem extractField_insertField_disjoint {d e : FieldDesc} {v : Byte} (x : Byte) (hv : v.toNat < 2 ^ d.width)
    (hdisj : d.lsb + d.width ≤ e.lsb ∨ e.lsb + e.width ≤ d.lsb) :
    extractField e (insertField d x v) = extractField e x := by
  apply BitVec.eq_of_getLsbD_eq
  intro k hk
  rw [getLsbD_extractField e _ k hk, getLsbD_extractField e _ k hk]
  by_cases hw : k < e.width
  · by_cases h8 : e.lsb + k < 8
    · rw [getLsbD_insertField d x v _ h8 hv, if_neg (by omega)]
    · rw [BitVec.getLsbD_of_ge _ _ (by omega), BitVec.getLsbD_of_ge _ _ (by omega)]
  · simp [hw]

/-! ## A field read after a field written, in the image -/

/-- What GETF answers for a row of the field table (R150). -/
def rowValue (d : FieldDesc) (m : Memory) : Byte := extractField d (m.read d.off.val)

theorem rowValue_writeField_same {d : FieldDesc} {v : Byte} (m : Memory) (hv : v.toNat < 2 ^ d.width)
    (hbyte : v.toNat < 2 ^ (8 - d.lsb)) : rowValue d (writeField d v m) = v := by
  rw [rowValue, read_writeField_same, extractField_insertField _ hv hbyte]

theorem rowValue_writeField_disjoint {d e : FieldDesc} {v : Byte} (m : Memory) (hv : v.toNat < 2 ^ d.width)
    (hdisj : d.off ≠ e.off ∨ d.lsb + d.width ≤ e.lsb ∨ e.lsb + e.width ≤ d.lsb) :
    rowValue e (writeField d v m) = rowValue e m := by
  unfold rowValue
  by_cases hoff : e.off = d.off
  · rw [hoff, read_writeField_same, extractField_insertField_disjoint _ hv (hdisj.resolve_left (· hoff.symm))]
  · rw [read_writeField_other v m (fun h => hoff (Fin.ext h))]

theorem read_writeField_rowValue (d : FieldDesc) (m : Memory) (a : Nat) :
    (writeField d (rowValue d m) m).read a = m.read a := by
  by_cases ha : a = d.off.val
  · rw [ha, read_writeField_same, rowValue, insertField_extractField]
  · exact read_writeField_other _ m ha

/-- GETF answers the value of its row, and changes nothing but the port. -/
theorem exec_getfOf_eq (f : Field) (s : State) :
    exec (getfOf f) s = .next (s.finish (rowValue (fieldDesc s.params.ft f) s.img)) := exec_getfOf f s

/-- SETF of a value that fits writes its row. -/
theorem exec_setfOf_fits {f : Field} {v : Byte} {s : State} (h : v.toNat < 2 ^ (fieldDesc s.params.ft f).width) :
    exec (setfOf v f) s = .next ({ s with img := writeField (fieldDesc s.params.ft f) v s.img }.finish 0) :=
  (exec_setfOf f v s).trans (writeFieldCommand_fits h)

/-- A value that fits a field inside one byte has no bit beyond the byte. -/
theorem lt_two_pow_of_fits {d : FieldDesc} {v : Byte} (hv : v.toNat < 2 ^ d.width) (hd : d.lsb + d.width ≤ 8) :
    v.toNat < 2 ^ (8 - d.lsb) :=
  Nat.lt_of_lt_of_le hv (Nat.pow_le_pow_right (by omega) (by omega))

/-- Settles O54: the bound is that of a build's table, and the laws are those of the row's value. -/
theorem fieldAccessorsObeyTheirLaws : Obligations.FieldAccessorsObeyTheirLaws := by
  refine ⟨fun p f hp => ?_, fun f v s hok hv => ?_, fun f s => ?_, fun f g v s => ?_⟩
  · exact fieldDesc_ok ((Bool.and_eq_true _ _).mp hp).2 f
  · have hbyte := lt_two_pow_of_fits hv (fieldDesc_ok hok f).2
    refine ⟨_, _, exec_setfOf_fits hv, exec_getfOf_eq f _, ?_⟩
    exact congrArg some (rowValue_writeField_same s.img hv hbyte)
  · have hv : (rowValue (fieldDesc s.params.ft f) s.img).toNat < 2 ^ (fieldDesc s.params.ft f).width :=
      extractField_lt _ _
    exact ⟨_, _, _, exec_getfOf_eq f s, rfl, exec_setfOf_fits (s := s.finish _) hv, read_writeField_rowValue _ s.img⟩
  · intro d e hv hdisj
    refine ⟨_, _, _, exec_setfOf_fits hv, exec_getfOf_eq g _, exec_getfOf_eq g s, ?_⟩
    exact congrArg some (rowValue_writeField_disjoint s.img hv hdisj)

/-! ## SETBCD -/

theorem toNat_digit {k : Nat} (h : k < 10) : (BitVec.ofNat 8 k).toNat = k := by
  rw [BitVec.toNat_ofNat]
  omega

/-- The host issues the next command once a command has completed (R36). -/
theorem hostIssues_cons_ready {i : Instr} {is : List Instr} {s t : State} (h : exec i s = .next t)
    (hr : t.cmdReady = true) : hostIssues (i :: is) s = hostIssues is t := by
  simp [hostIssues, h, hr]

/-- Two SETF whose values fit complete one after the other. -/
theorem hostIssues_setf_setf {f g : Field} {v w : Byte} {s : State} (hv : v.toNat < 2 ^ (fieldDesc s.params.ft f).width)
    (hw : w.toNat < 2 ^ (fieldDesc s.params.ft g).width) :
    hostIssues [setfOf v f, setfOf w g] s =
      .next ({ s with img := writeField (fieldDesc s.params.ft g) w (writeField (fieldDesc s.params.ft f) v s.img) }.finish 0) := by
  rw [hostIssues_cons_ready (exec_setfOf_fits hv) rfl]
  exact hostIssues_cons_ready (exec_setfOf_fits (s := State.finish _ 0) hw) rfl

/-- Settles O55: the ones nibble lies below the tens field, so neither SETF disturbs the other. -/
theorem setbcdReadsBack : Obligations.SetbcdReadsBack := by
  intro tens ones n s d e hn hoff helsb hewidth hdlsb htens
  have hn10 := toNat_digit (k := n / 10) (by omega)
  have hn1 := toNat_digit (k := n % 10) (by omega)
  have hv : (BitVec.ofNat 8 (n / 10)).toNat < 2 ^ d.width := by rw [hn10]; exact htens
  have hw : (BitVec.ofNat 8 (n % 10)).toNat < 2 ^ e.width := by rw [hn1, hewidth]; omega
  have htensValue : rowValue d (writeField e (BitVec.ofNat 8 (n % 10)) (writeField d (BitVec.ofNat 8 (n / 10)) s.img)) =
      BitVec.ofNat 8 (n / 10) := by
    rw [rowValue_writeField_disjoint _ hw (.inr (.inl (by omega))),
      rowValue_writeField_same _ hv (by rw [hn10, hdlsb]; omega)]
  have honesValue : rowValue e (writeField e (BitVec.ofNat 8 (n % 10)) (writeField d (BitVec.ofNat 8 (n / 10)) s.img)) =
      BitVec.ofNat 8 (n % 10) :=
    rowValue_writeField_same _ hw (by rw [hn1, helsb]; omega)
  refine ⟨_, hostIssues_setf_setf hv hw, rfl, ?_⟩
  change 10 * (rowValue d _).toNat + (rowValue e _).toNat = n
  rw [State.finish_img, htensValue, honesValue, hn10, hn1]
  omega

end Sys2Proof.Machine
end

section
/-! A composite is its expansion (R133): the host issuing commands one after another does what the command that performs their
steps in one list does, for any agenda and any answers. -/

namespace Sys2Proof.Machine

/-! ## Steps that answer nothing and leave the image -/

/-- Steps without a response and without a store in the image. -/
def Silent (ms : List Micro) : Prop := .respondData ∉ ms ∧ ∀ k, .storeData k ∉ ms

theorem Silent.keeps {ms : List Micro} (h : Silent ms) {s : State} :
    ∀ m ∈ ms, ∀ {u t}, u.rsp = none ∧ u.img = s.img → PromptStep m u t → t.rsp = none ∧ t.img = s.img := by
  intro m hm u t hu hp
  cases hp with
  | stored k _ hmk => exact absurd (hmk ▸ hm) (h.2 k)
  | responded _ hmr => exact absurd (hmr ▸ hm) h.1
  | _ => exact hu

theorem silentAgents (s : State) : KeptByAgents (fun u => u.rsp = none ∧ u.img = s.img) where
  engine {u} h := ⟨(engineStep_frame u).rsp.trans h.1, (engineStep_frame u).img.trans h.2⟩
  chipTime _ _ _ h := h
  agenda _ _ h := h

/-- Steps one after the other: where the first complete, the second go on from there; where they block, the second are left;
where they fault, so does the whole. -/
theorem perform_append {xs : List Micro} (hxs : Silent xs) (ys : List Micro) (s : State) :
    (∀ t, perform xs s = .next t → t.cmdReady = true → t.img = s.img ∧ perform (xs ++ ys) s = perform ys t) ∧
    (∀ t, perform xs s = .next t → t.cmdReady = false → perform (xs ++ ys) s = .next { t with todo := t.todo ++ ys }) ∧
    (∀ f, perform xs s = .fault f → perform (xs ++ ys) s = .fault f) := by
  have hkept := (silentAgents s).runMicros hxs.keeps (s := { s with rsp := none }) ⟨rfl, rfl⟩
  have happ := runMicros_append xs ys { s with rsp := none }
  obtain ⟨u, hu, he⟩ | ⟨left, u, hu, he⟩ | ⟨f, hf, he⟩ := perform_cases xs s <;> rw [he]
  · obtain ⟨hrsp, himg⟩ := hkept.1 u hu
    rw [hu] at happ
    have hport : ({ u with rsp := none } : State) = u := by rw [← hrsp]
    have hperform : perform (xs ++ ys) s = perform ys u :=
      perform_congr (happ.trans (congrArg (runMicros ys) hport.symm))
    refine ⟨fun t ht _ => ?_, fun t ht hr => ?_, fun f hf => (by cases hf)⟩ <;> cases ht
    · exact ⟨himg, hperform.trans (perform_withPort ys u _ []).symm⟩
    · cases hr
  · rw [hu] at happ
    refine ⟨fun t ht hr => ?_, fun t ht _ => ?_, fun f hf => (by cases hf)⟩ <;> cases ht
    · have hne := runMicros_parked_ne_nil xs hu
      exact absurd (List.isEmpty_iff.mp hr) hne
    · exact perform_of_parked (left := left ++ ys) (t := u) happ
  · rw [hf] at happ
    refine ⟨fun t ht => (by cases ht), fun t ht => (by cases ht), fun g hg => ?_⟩
    cases hg
    exact perform_of_faulted happ

/-! ## The host issuing commands -/

/-- The command `p.1` performs the steps `p.2` while the image is `m`, and they are silent. -/
structure IssuesAs (m : Memory) (p : Instr × List Micro) : Prop where
  exec : ∀ s, s.img = m → Machine.exec p.1 s = perform p.2 s
  silent : Silent p.2

/-- The outcome `e` of a composite is the outcome `h` of the host's commands: the same state, a block in the same state but for
the steps left, or the same fault. -/
def Agrees (h e : Host.Outcome State Fault Refusal) : Prop :=
  (∀ t, h = .next t → t.cmdReady = true → e = .next t) ∧
  (∀ t, h = .next t → t.cmdReady = false → ∃ u, e = .next u ∧ u.cmdReady = false ∧ { u with todo := t.todo } = t) ∧
  (∀ f, h = .fault f → e = .fault f)

theorem Agrees.refl (h : Host.Outcome State Fault Refusal) : Agrees h h :=
  ⟨fun _ ht _ => ht, fun t ht hr => ⟨t, ht, hr, rfl⟩, fun _ hf => hf⟩

theorem hostIssues_cons_blocked {i : Instr} {is : List Instr} {s t : State} (h : exec i s = .next t)
    (hr : t.cmdReady = false) : hostIssues (i :: is) s = .next t := by
  simp [hostIssues, h, hr]

theorem hostIssues_cons_fault {i : Instr} {is : List Instr} {s : State} {f : Fault} (h : exec i s = .fault f) :
    hostIssues (i :: is) s = .fault f := by
  simp [hostIssues, h]

theorem hostIssues_singleton (i : Instr) (s : State) : hostIssues [i] s = exec i s := by
  unfold hostIssues
  cases exec i s with
  | next t => simp [hostIssues]
  | fault f => rfl
  | refused r => rfl

/-- The host's commands and the steps of all of them in one list agree. -/
theorem hostIssues_agrees {m : Memory} (l : List (Instr × List Micro)) :
    ∀ (p : Instr × List Micro), (∀ q ∈ p :: l, IssuesAs m q) → ∀ s : State, s.img = m →
      Agrees (hostIssues ((p :: l).map Prod.fst) s) (perform ((p :: l).map Prod.snd).flatten s) := by
  induction l with
  | nil =>
    intro p hp s hs
    simp only [List.map_cons, List.map_nil, List.flatten_cons, List.flatten_nil, List.append_nil]
    rw [hostIssues_singleton, (hp p List.mem_cons_self).exec s hs]
    exact Agrees.refl _
  | cons q l ih =>
    intro p hp s hs
    have hexec := (hp p List.mem_cons_self).exec s hs
    obtain ⟨hready, hblocked, hfault⟩ :=
      perform_append (hp p List.mem_cons_self).silent ((q :: l).map Prod.snd).flatten s
    change Agrees (hostIssues (p.1 :: (q :: l).map Prod.fst) s) (perform (p.2 ++ ((q :: l).map Prod.snd).flatten) s)
    cases h : perform p.2 s with
    | next t =>
      rw [h] at hexec
      cases hr : t.cmdReady with
      | true =>
        obtain ⟨himg, he⟩ := hready t h hr
        rw [hostIssues_cons_ready hexec hr, he]
        exact ih q (fun r hr => hp r (List.mem_cons_of_mem p hr)) t (himg.trans hs)
      | false =>
        rw [hostIssues_cons_blocked hexec hr, hblocked t h hr]
        refine ⟨fun u hu hur => ?_, fun u hu _ => ?_, fun f hf => (by cases hf)⟩ <;> cases hu
        · rw [hr] at hur; cases hur
        · have hne : t.todo ≠ [] := by simpa [State.cmdReady] using hr
          exact ⟨_, rfl, by simp [State.cmdReady, hne], rfl⟩
    | fault f =>
      rw [h] at hexec
      rw [hostIssues_cons_fault hexec, hfault f h]
      exact Agrees.refl _
    | refused r => exact absurd h (perform_ne_refused _ _ _)

/-! ## The wrappers and COMMIT -/

/-- The commands of BEGIN with their steps (R130). -/
def beginParts (addr : BusAddr) (read : Bool) : List (Instr × List Micro) :=
  [(.start, [.start]), (.wait, waitSteps), (.setaddr addr read, [.setAddr addr read]), (.xferaddr, [.xferAddr]),
    (.wait, waitSteps)]

/-- The commands of a COMMIT's burst with their steps (R141). -/
def transmitParts (m : Memory) (a : Nat) : Nat → List (Instr × List Micro)
  | 0 => []
  | n + 1 => (.sendbyte (m.read (imgIdx a).val), [.sendImage (imgIdx a)]) :: (.wait, waitSteps) :: transmitParts m (a + 1) n

theorem transmitParts_commands (m : Memory) : ∀ n a, (transmitParts m a n).map Prod.fst = transmitCommands m a n
  | 0, _ => rfl
  | n + 1, a => by simp [transmitParts, transmitCommands, transmitParts_commands m n]

theorem transmitParts_steps (m : Memory) : ∀ n a, ((transmitParts m a n).map Prod.snd).flatten = transmitSteps a n
  | 0, _ => rfl
  | n + 1, a => by simp [transmitParts, transmitSteps, transmitParts_steps m n]

theorem issuesAs_wait (m : Memory) : IssuesAs m (.wait, waitSteps) := ⟨fun _ _ => rfl, by simp [Silent, waitSteps]⟩

/-- SENDBYTE of an image byte is the step of a COMMIT that sends that byte. -/
theorem issuesAs_sendImage (m : Memory) (k : ImgIdx) : IssuesAs m (.sendbyte (m.read k.val), [.sendImage k]) where
  exec s hs := by
    subst hs
    refine perform_congr (ms := [.sendByte (s.img.read k.val)]) (ns := [.sendImage k]) ?_
    simp only [runMicros, microStep_sendImage]
    cases h : microStep (.sendByte (s.img.read k.val)) { s with rsp := none } with
    | park t => exact absurd h (microStep_ne_park rfl _ t)
    | go t => rfl
    | stop f => rfl
  silent := by simp [Silent]

theorem issuesAs_transmitParts (m : Memory) : ∀ n a, ∀ p ∈ transmitParts m a n, IssuesAs m p
  | 0, _, _, h => by cases h
  | n + 1, a, p, h => by
    rcases List.mem_cons.mp h with rfl | h
    · exact issuesAs_sendImage m _
    · rcases List.mem_cons.mp h with rfl | h
      · exact issuesAs_wait m
      · exact issuesAs_transmitParts m n (a + 1) p h

/-- Settles O42: the parts of each wrapper, one after the other, are its steps. -/
theorem wrappersAreTheirExpansions : Obligations.WrappersAreTheirExpansions := by
  rintro s i is (⟨addr, read, rfl, rfl⟩ | ⟨rfl, rfl⟩)
  · refine hostIssues_agrees (m := s.img) (beginParts addr read).tail (.start, [.start]) ?_ s rfl
    simp only [beginParts, List.tail_cons, List.forall_mem_cons]
    exact ⟨⟨fun _ _ => rfl, by simp [Silent]⟩, issuesAs_wait _, ⟨fun _ _ => rfl, by simp [Silent]⟩,
      ⟨fun _ _ => rfl, by simp [Silent]⟩, issuesAs_wait _, by simp⟩
  · refine hostIssues_agrees (m := s.img) [(.waitstop, waitstopSteps)] (.stop, [.stop]) ?_ s rfl
    simp only [List.forall_mem_cons]
    exact ⟨⟨fun _ _ => rfl, by simp [Silent]⟩, ⟨fun _ _ => rfl, by simp [Silent, waitstopSteps]⟩, by simp⟩

/-- Settles O43: BEGIN, the pointer byte, the image bytes, which no step of the COMMIT changes, and END. -/
theorem commitIsItsExpansion : Obligations.CommitIsItsExpansion := by
  intro s start count hv
  have h := hostIssues_agrees (m := s.img)
    ((.sendbyte start, [.sendByte start]) :: (.wait, waitSteps) ::
      (transmitParts s.img start.toNat count.toNat ++ [(.endXfer, endSteps)]))
    (.beginXfer s.params.addrClock false, beginSteps s.params.addrClock false) ?parts s rfl
  case parts =>
    simp only [List.forall_mem_cons, List.forall_mem_append]
    exact ⟨⟨fun _ _ => rfl, by simp [Silent, beginSteps, waitSteps]⟩, ⟨fun _ _ => rfl, by simp [Silent]⟩, issuesAs_wait _,
      issuesAs_transmitParts _ _ _, ⟨fun _ _ => rfl, by simp [Silent, endSteps, waitstopSteps]⟩, by simp⟩
  simp only [List.map_cons, List.map_append, List.map_nil, List.flatten_cons, List.flatten_append, List.flatten_nil,
    transmitParts_commands, transmitParts_steps, List.append_nil] at h
  rw [exec_commit_of_valid hv]
  exact h

end Sys2Proof.Machine
end

section
/-! The phases of a transaction in a quiet, served state (R120 to R126, entry 9): what each leaves when its awaited Engine step
is taken. The wrappers BEGIN and END are two of these in a row (R130, R131). -/

namespace Sys2Proof.Machine

/-! ## Quiet and served states -/

/-- The engine is enabled, nothing is pending, the bus is not wedged, and an await gets the Engine's step. -/
structure Attended (s : State) : Prop where
  en : s.en = true
  pend : s.pend = none
  stopreq : s.stopreq = false
  wedged : s.wedged = false
  served : s.served = true

theorem Attended.of_quiet {s : State} (hq : s.quiet = true) (hs : s.served = true) : Attended s := by
  obtain ⟨he, hp, hst, hw⟩ := (quiet_iff s).mp hq
  exact ⟨he, hp, hst, hw, hs⟩

theorem Attended.quiet {s : State} (h : Attended s) : s.quiet = true :=
  (quiet_iff s).mpr ⟨h.en, h.pend, h.stopreq, h.wedged⟩

/-- Being attended is about these elements alone. -/
theorem Attended.congr {s t : State} (h : Attended s) (he : t.en = s.en) (hp : t.pend = s.pend) (hq : t.stopreq = s.stopreq)
    (hw : t.wedged = s.wedged) (ha : t.agenda = s.agenda) (hf : t.fair = s.fair) : Attended t :=
  ⟨he.trans h.en, hp.trans h.pend, hq.trans h.stopreq, hw.trans h.wedged, (served_congr ha hf).trans h.served⟩

theorem Attended.withRsp {s : State} (h : Attended s) (x : Option Byte) : Attended { s with rsp := x } :=
  h.congr rfl rfl rfl rfl rfl rfl

theorem readyToStart_iff (s : State) : s.readyToStart = true ↔ s.quiet = true ∧ legality .start s.bus = .ok := by
  simp [State.readyToStart]

/-! ## One phase -/

/-- The launch of a phase in an attended state, and its await: the phase completes (R110, R113, R120). -/
theorem runMicros_phase {m : Micro} {cmd : Instr} {p : Phase} {prep : State → State}
    (hm : ∀ s, microStep m s = launch cmd p prep s) {s : State} (h : Attended s) (hl : legality p s.bus = .ok)
    {d : Byte} {k : Bool} (hprep : prep s = s.prepare d k p) {t : State}
    (ht : completePhase p ((s.prepare d k p).issue p) = t) (hdone : t.done = true) (ms : List Micro) :
    runMicros (m :: .awaitDone :: ms) s = runMicros ms t := by
  subst ht
  rw [runMicros_launch hm h.quiet hl, hprep]
  exact runMicros_awaitDone h.en h.wedged ((served_congr rfl rfl).trans h.served) hdone

/-- The same with the WAIT of the host, which checks `EN` first (R113). -/
theorem runMicros_phase_wait {m : Micro} {cmd : Instr} {p : Phase} {prep : State → State}
    (hm : ∀ s, microStep m s = launch cmd p prep s) {s : State} (h : Attended s) (hl : legality p s.bus = .ok)
    {d : Byte} {k : Bool} (hprep : prep s = s.prepare d k p) {t : State}
    (ht : completePhase p ((s.prepare d k p).issue p) = t) (hdone : t.done = true) (ms : List Micro) :
    runMicros (m :: (waitSteps ++ ms)) s = runMicros ms t := by
  have hen : ((s.prepare d k p).issue p).en = true := h.en
  rw [← runMicros_phase hm h hl hprep ht hdone ms, runMicros_launch hm h.quiet hl, runMicros_launch hm h.quiet hl, hprep]
  exact runMicros_requireEnabled hen

/-! ## START -/

/-- After a START (R121). -/
def State.afterStart (s : State) : State :=
  { s with
    status := statusCode (startStatus s.bus), bus := .started, done := true, chipPtrNext := false,
    history := .start (s.bus != .idle) :: s.history }

theorem Attended.afterStart {s : State} (h : Attended s) : Attended s.afterStart := h.congr rfl rfl rfl rfl rfl rfl

theorem runMicros_start {s : State} (h : Attended s) (hl : legality .start s.bus = .ok) (ms : List Micro) :
    runMicros (.start :: (waitSteps ++ ms)) s = runMicros ms s.afterStart := by
  refine runMicros_phase_wait microStep_start h hl (d := s.data) (k := s.acken) (set_stopreq_false h.stopreq).symm ?_ rfl ms
  simp only [completePhase, completeStart, State.completeWith, State.saw, State.issue, State.prepare, State.afterStart,
    h.pend, h.stopreq]
  rfl

/-! ## The address phase -/

/-- After an address phase with this answer of the slave (R122). -/
def State.afterAddr (s : State) (addr : BusAddr) (read ack : Bool) : State :=
  { s with
    data := addressByte addr read, status := statusCode (addrStatus read ack),
    bus := if ack then (if read then .mr else .mt) else .nacked, sel := if ack then addr else s.sel, done := true,
    chipPtrNext := ack && !read && (addr == s.params.addrClock), replies := s.replies.tail,
    history := .addr addr read ack :: s.history }

theorem Attended.afterAddr {s : State} (h : Attended s) (addr : BusAddr) (read ack : Bool) :
    Attended (s.afterAddr addr read ack) := h.congr rfl rfl rfl rfl rfl rfl

/-- The phase of an address byte in `DATA` completes with the slave's answer, an ACK or, where `NACK_COMPLETES`, a NACK. -/
theorem completePhase_addr {s : State} {addr : BusAddr} {read ack : Bool} (h : Attended s)
    (hdata : s.data = addressByte addr read) (hack : addrAnswer s addr read = ack)
    (hn : s.params.nackCompletes = true ∨ ack = true) :
    completePhase .addr ((s.prepare s.data s.acken .addr).issue .addr) = s.afterAddr addr read ack := by
  have haddr : addressOf s.data = addr := by rw [hdata, addressOf_addressByte]
  have hread : directionOf s.data = read := by rw [hdata, directionOf_addressByte]
  have hanswer : addrAnswer ((s.prepare s.data s.acken .addr).issue .addr) (addressOf s.data) (directionOf s.data) = ack := by
    rw [haddr, hread]; exact hack
  rw [completePhase]
  cases ack with
  | true =>
    rw [completeAddr_acked hanswer]
    simp only [State.issue, State.prepare, State.afterAddr, hdata, addressOf_addressByte, directionOf_addressByte,
      h.pend, h.stopreq]
    rfl
  | false =>
    rw [completeAddr_nacked hanswer, completeNacked_of_completes _ (by exact hn.resolve_right Bool.false_ne_true)]
    simp only [State.issue, State.prepare, State.afterAddr, State.completeWith, hdata, addressOf_addressByte, directionOf_addressByte,
      h.pend, h.stopreq]
    rfl

theorem runMicros_addr {s : State} (h : Attended s) (hbus : s.bus = .started) {addr : BusAddr} {read ack : Bool}
    (hack : addrAnswer s addr read = ack) (hn : s.params.nackCompletes = true ∨ ack = true) (ms : List Micro) :
    runMicros (.setAddr addr read :: .xferAddr :: (waitSteps ++ ms)) s = runMicros ms (s.afterAddr addr read ack) := by
  have hload : microStep (.setAddr addr read) s = .go { s with data := addressByte addr read } :=
    loadAddress_eq addr read s h.en ((busy_false_iff s).mpr ⟨h.pend, h.stopreq⟩)
  have h' : Attended { s with data := addressByte addr read } := h.congr rfl rfl rfl rfl rfl rfl
  rw [runMicros_cons_go hload]
  exact runMicros_phase_wait microStep_xferAddr h' (by rw [hbus]; rfl) (set_stopreq_false h'.stopreq).symm
    (completePhase_addr h' rfl hack hn) rfl ms

/-- The answer to an address is the next stored one (entry 5). -/
theorem addrAnswer_of_reply {s : State} {r : Reply} {rs : List Reply} (h : s.replies = r :: rs) (addr : BusAddr) (read : Bool) :
    addrAnswer s addr read = r.ack := by
  simp [addrAnswer, h]

/-! ## BEGIN and END -/

/-- After a BEGIN with this answer of the slave (R130). -/
def State.afterBegin (s : State) (addr : BusAddr) (read ack : Bool) : State := s.afterStart.afterAddr addr read ack

theorem Attended.afterBegin {s : State} (h : Attended s) (addr : BusAddr) (read ack : Bool) :
    Attended (s.afterBegin addr read ack) := h.afterStart.afterAddr addr read ack

theorem runMicros_begin {s : State} (h : Attended s) (hl : legality .start s.bus = .ok) {r : Reply} {rs : List Reply}
    (hrep : s.replies = r :: rs) (hn : s.params.nackCompletes = true ∨ r.ack = true) (addr : BusAddr) (read : Bool)
    (ms : List Micro) : runMicros (beginSteps addr read ++ ms) s = runMicros ms (s.afterBegin addr read r.ack) := by
  have hack : addrAnswer s.afterStart addr read = r.ack := addrAnswer_of_reply (s := s.afterStart) (rs := rs) hrep addr read
  exact (runMicros_start h hl _).trans (runMicros_addr h.afterStart rfl hack hn ms)

/-- After a STOP (R126): `DONE` stays 0, as the issue of the STOP left it. -/
def State.afterStop (s : State) : State :=
  { s with
    done := false, status := statusCode .none, bus := .idle, chipPtrNext := false, history := .stop :: s.history }

theorem legality_stop_ok {b : BusState} (h : b = .mt ∨ b = .mrLast ∨ b = .nacked) : legality .stop b = .ok := by
  rcases h with rfl | rfl | rfl <;> rfl

theorem runMicros_end {s : State} (h : Attended s) (hbus : s.bus = .mt ∨ s.bus = .mrLast ∨ s.bus = .nacked) :
    runMicros endSteps s = .done s.afterStop := by
  have hstep : engineStep (State.issue { s with stopreq := true } .stop) = s.afterStop := by
    rw [engineStep_of_pend (s := State.issue { s with stopreq := true } .stop) (p := .stop) h.en h.wedged rfl]
    simp only [completePhase, completeStop, State.saw, State.issue, State.afterStop]
    rw [← h.pend, ← h.stopreq]
  have hgo : microStep .awaitStop (State.issue { s with stopreq := true } .stop) = .go s.afterStop := by
    rw [← hstep]
    refine await_go ((served_congr rfl rfl).trans h.served) rfl ?_
    rw [hstep]
    exact Bool.not_eq_true' _ ▸ h.stopreq
  have hen : (State.issue { s with stopreq := true } .stop).en = true := h.en
  rw [endSteps, runMicros_launch microStep_stop h.quiet (legality_stop_ok hbus), waitstopSteps]
  exact (runMicros_requireEnabled hen).trans (runMicros_cons_go hgo)

/-- Settles O39: BEGIN is START and the address phase, each with its await. -/
theorem beginCompletesTheAddressPhase : Obligations.BeginCompletesTheAddressPhase := by
  intro s addr read r rs hready hs hn hrep
  obtain ⟨hq, hl⟩ := (readyToStart_iff s).mp hready
  have h := (Attended.of_quiet hq hs).withRsp none
  have hrun := runMicros_begin h hl (r := r) (rs := rs) hrep hn addr read []
  rw [List.append_nil] at hrun
  refine (perform_of_done hrun).trans ?_
  simp only [State.afterBegin, State.afterAddr, State.afterStart, State.finish, statusCode_addrStatus, hrep, h.pend]
  rfl

/-- Settles O40: END is STOP and its await. -/
theorem endCompletesTheStop : Obligations.EndCompletesTheStop := by
  intro s hq hs hbus
  have h := (Attended.of_quiet hq hs).withRsp none
  refine (perform_of_done (s := s) (runMicros_end h hbus)).trans ?_
  simp only [State.afterStop, State.finish, h.pend, h.stopreq]
  rfl

/-- Settles O41: from `MR` the first step wedges (R128), so no Engine step ends its await. -/
theorem wrappersHangInMasterReceiver : Obligations.WrappersHangInMasterReceiver := by
  intro s addr read hq hs hbus
  have hen : s.en = true := ((quiet_iff s).mp hq).1
  constructor
  · have hrun := (runMicros_launch_wedge microStep_start (s := { s with rsp := none }) (ms := (beginSteps addr read).tail) hq
      (by rw [hbus]; rfl)).trans (runMicros_requireEnabled hen)
    obtain ⟨he, hh⟩ := perform_hangs awaitDone_awaits (s := s) (ms := beginSteps addr read) hrun ((settled_congr rfl).trans hs) rfl rfl
      (dueStep_of_no_step (.inr (.inr (.inl rfl)))) rfl (dueStep_of_no_step (.inr (.inr (.inl rfl))))
    exact ⟨_, he, rfl, rfl, rfl, hh⟩
  · have hrun := (runMicros_launch_wedge microStep_stop (s := { s with rsp := none }) (ms := waitstopSteps) hq
      (by rw [hbus]; rfl)).trans (runMicros_requireEnabled hen)
    obtain ⟨he, hh⟩ := perform_hangs awaitStop_awaits (s := s) (ms := endSteps) hrun ((settled_congr rfl).trans hs) rfl rfl
      (dueStep_of_no_step (.inr (.inr (.inl rfl)))) rfl (dueStep_of_no_step (.inr (.inr (.inl rfl))))
    exact ⟨_, he, rfl, rfl, rfl, rfl, hh⟩

end Sys2Proof.Machine
end

section
/-! The bursts of the range commands (R140, R141) in a quiet, served state: a sent byte and a received byte of the clock chip,
and then the whole burst, by induction on the number of bytes. -/

namespace Sys2Proof.Machine

/-! ## A sent byte -/

/-- After a byte sent with this answer of the slave (R117, R123). -/
def State.afterSend (s : State) (d : Byte) (ack : Bool) : State :=
  { writeAsked s d ack with
    data := d, acken := false, done := true, status := statusCode (if ack then .dwAck else .dwNack),
    bus := if ack then s.bus else .nacked }

theorem Attended.afterSend {s : State} (h : Attended s) (d : Byte) (ack : Bool) : Attended (s.afterSend d ack) := by
  have hb := writeAsked_block s d ack
  exact h.congr hb.en hb.pend hb.stopreq hb.wedged hb.agenda hb.fair

/-- The environment's part of a sent byte reads neither the bytes of the block nor the phase. -/
theorem chipTakes_issued (s : State) (d : Byte) :
    chipTakes ((s.prepare d false .tx).issue .tx) d = ((chipTakes s d).prepare d false .tx).issue .tx := by
  cases hfirst : s.chipPtrNext with
  | true => simp [chipTakes, State.issue, State.prepare, hfirst]
  | false =>
    cases hptr : mappedPtr s.ptr with
    | true => simp [chipTakes, State.issue, State.prepare, hfirst, hptr]
    | false => simp [chipTakes, State.issue, State.prepare, hfirst, hptr]

theorem writeAsked_issued (s : State) (d : Byte) (ack : Bool) :
    writeAsked ((s.prepare d false .tx).issue .tx) d ack = ((writeAsked s d ack).prepare d false .tx).issue .tx := by
  have hsel : ((s.prepare d false .tx).issue .tx).clockSelected = s.clockSelected := rfl
  unfold writeAsked
  rw [hsel, chipTakes_issued]
  split <;> rfl

/-- A sent byte completes with the slave's answer, an ACK or, where `NACK_COMPLETES`, a NACK. -/
theorem completePhase_tx {s : State} {d : Byte} {ack : Bool} (h : Attended s) (hack : writeAnswer s d = ack)
    (hn : s.params.nackCompletes = true ∨ ack = true) :
    completePhase .tx ((s.prepare d false .tx).issue .tx) = s.afterSend d ack := by
  have hb := writeAsked_block s d ack
  have hanswer : writeAnswer ((s.prepare d false .tx).issue .tx) ((s.prepare d false .tx).issue .tx).data = ack := hack
  have hdata : ((s.prepare d false .tx).issue .tx).data = d := rfl
  rw [completePhase, completeTx, hanswer, hdata]
  cases ack with
  | true =>
    rw [if_pos rfl, writeAsked_issued]
    simp only [State.completeWith, State.issue, State.prepare, State.afterSend, hb.pend, h.pend, hb.stopreq, h.stopreq]
    rfl
  | false =>
    have hparams : (writeAsked s d false).params.nackCompletes = true := hb.params ▸ hn.resolve_right Bool.false_ne_true
    rw [if_neg Bool.false_ne_true, writeAsked_issued, completeNacked_of_completes _ (by exact hparams)]
    simp only [State.completeWith, State.issue, State.prepare, State.afterSend, hb.pend, h.pend, hb.stopreq, h.stopreq]
    rfl

theorem runMicros_send {s : State} (h : Attended s) (hbus : s.bus = .mt) {d : Byte} {r : Reply} {rs : List Reply}
    (hrep : s.replies = r :: rs) (hn : s.params.nackCompletes = true ∨ r.ack = true) (ms : List Micro) :
    runMicros (.sendByte d :: (waitSteps ++ ms)) s = runMicros ms (s.afterSend d r.ack) := by
  have hack : writeAnswer s d = r.ack := by simp [writeAnswer, hrep]
  have hprep : ({ s with data := d, acken := false } : State) = s.prepare d false .tx := by
    rw [← set_stopreq_false h.stopreq]; rfl
  exact runMicros_phase_wait (microStep_sendByte d) h (by rw [hbus]; rfl) hprep (completePhase_tx h hack hn) rfl ms

/-- Two prompt steps that do the same leave the same run. -/
theorem runMicros_cons_congr {m m' : Micro} {s : State} (hm : m'.awaits = false) (h : microStep m s = microStep m' s)
    (ms : List Micro) : runMicros (m :: ms) s = runMicros (m' :: ms) s := by
  rw [runMicros, runMicros, h]
  cases hm' : microStep m' s with
  | park t => exact absurd hm' (microStep_ne_park hm s t)
  | go | stop => rfl

/-- A byte of the image is sent as a SENDBYTE of it (R141). -/
theorem runMicros_sendImage {i : ImgIdx} {s : State} (ms : List Micro) :
    runMicros (.sendImage i :: ms) s = runMicros (.sendByte (s.img.read i.val) :: ms) s :=
  runMicros_cons_congr rfl (microStep_sendImage i s) ms

/-! The chip's part of a sent byte (R55). -/

theorem afterSend_pointer {s : State} (d : Byte) (hsel : s.sel = s.params.addrClock) (hfirst : s.chipPtrNext = true) :
    s.afterSend d true =
      { s with
        data := d, acken := false, done := true, status := statusCode .dwAck, ptr := d, chipPtrNext := false,
        replies := s.replies.tail, history := .sent d true :: s.history } := by
  rw [State.afterSend, writeAsked_taken d hsel, chipTakes_pointer d hfirst]
  rfl

theorem afterSend_data {s : State} (d : Byte) (hsel : s.sel = s.params.addrClock) (hlater : s.chipPtrNext = false)
    (hptr : s.ptr.toNat ≤ 0x12) :
    s.afterSend d true =
      { s with
        data := d, acken := false, done := true, status := statusCode .dwAck, chip := s.chip.write s.ptr.toNat d,
        ptr := nextPtr s.ptr, replies := s.replies.tail, history := .sent d true :: s.history } := by
  rw [State.afterSend, writeAsked_taken d hsel, chipTakes_data d hlater hptr]
  rfl

theorem afterSend_nacked (s : State) (d : Byte) :
    s.afterSend d false =
      { s with
        data := d, acken := false, done := true, status := statusCode .dwNack, bus := .nacked, replies := s.replies.tail,
        history := .sent d false :: s.history } := by
  rw [State.afterSend, writeAsked_untaken d (.inr rfl)]
  rfl

/-! ## Stored answers -/

/-- The next `n` answers of a list are ACK. -/
def AllAck (n : Nat) (l : List Reply) : Prop := n ≤ l.length ∧ ∀ r ∈ l.take n, r.ack = true

theorem acksNext_iff (s : State) (n : Nat) : s.acksNext n = true ↔ AllAck n s.replies := by
  simp [State.acksNext, AllAck]

theorem AllAck.succ {n : Nat} {l : List Reply} (h : AllAck (n + 1) l) :
    ∃ r, l = r :: l.tail ∧ r.ack = true ∧ AllAck n l.tail := by
  obtain ⟨hlen, hall⟩ := h
  cases l with
  | nil => simp at hlen
  | cons r rs =>
    simp only [List.take_succ_cons, List.forall_mem_cons] at hall
    exact ⟨r, rfl, hall.1, by simpa using hlen, hall.2⟩

theorem AllAck.drop {m n : Nat} {l : List Reply} (h : AllAck (m + n) l) : AllAck n (l.drop m) := by
  obtain ⟨hlen, hall⟩ := h
  refine ⟨by rw [List.length_drop]; omega, fun r hr => hall r ?_⟩
  rw [List.take_add]
  exact List.mem_append_right _ hr

theorem AllAck.mono {m n : Nat} {l : List Reply} (h : AllAck n l) (hmn : m ≤ n) : AllAck m l :=
  ⟨hmn.trans h.1, fun r hr => h.2 r ((List.take_subset_take_left l hmn) hr)⟩

/-! ## The chip's pointer -/

theorem nextPtr_toNat_of_lt {p : Byte} (h : p.toNat < 0x12) : (nextPtr p).toNat = p.toNat + 1 := by
  have hne : p ≠ 0x12 := by rintro rfl; exact absurd h (by decide)
  rw [nextPtr, if_neg hne, BitVec.toNat_add]
  exact Nat.mod_eq_of_lt (by simp; omega)

theorem nextPtr_le {p : Byte} (h : p.toNat ≤ 0x12) : (nextPtr p).toNat ≤ 0x12 := by
  rcases Nat.lt_or_eq_of_le h with hlt | heq
  · rw [nextPtr_toNat_of_lt hlt]; omega
  · rw [nextPtr, if_pos (BitVec.eq_of_toNat_eq heq)]; decide

theorem iterate_nextPtr_toNat : ∀ {n : Nat} {p : Byte}, p.toNat + n ≤ 0x12 → (nextPtr^[n] p).toNat = p.toNat + n
  | 0, _, _ => rfl
  | n + 1, p, h => by
    have hp := nextPtr_toNat_of_lt (p := p) (by omega)
    rw [Function.iterate_succ_apply, iterate_nextPtr_toNat (by omega), hp]
    omega

/-- The pointer after the last byte of a valid range (R57). -/
theorem iterate_nextPtr_range {start count : Byte} (h : validRange start count = true) :
    nextPtr^[count.toNat] start = nextPtr (start + count - 1) := by
  obtain ⟨hpos, hle⟩ := (validRange_iff start count).mp h
  obtain ⟨n, hn⟩ := Nat.exists_eq_add_of_le' hpos
  rw [hn, Function.iterate_succ_apply']
  congr 1
  apply BitVec.eq_of_toNat_eq
  rw [iterate_nextPtr_toNat (by omega)]
  bv_omega

theorem imgIdx_val {a : Nat} (h : a < 19) : (imgIdx a).val = a := Nat.mod_eq_of_lt h

/-! ## The burst of a COMMIT -/

/-- The `n` bytes of `src` from `a` on, copied into `dst` (R141). -/
def copyBytes (src : Memory) : Nat → Nat → Memory → Memory
  | _, 0, dst => dst
  | a, n + 1, dst => copyBytes src (a + 1) n (dst.write a (src.read a))

theorem read_copyBytes (src : Memory) (b : Nat) : ∀ (n a : Nat) (dst : Memory),
    (copyBytes src a n dst).read b = if a ≤ b ∧ b < a + n then src.read b else dst.read b
  | 0, a, dst => by rw [copyBytes, if_neg (by omega)]
  | n + 1, a, dst => by
    rw [copyBytes, read_copyBytes src b n, Memory.read_write]
    by_cases hb : b = a
    · simp [hb]
    · have : (a + 1 ≤ b ∧ b < a + 1 + n) ↔ (a ≤ b ∧ b < a + (n + 1)) := by omega
      simp only [hb, if_false, this]

/-- `DATA` after these bytes were sent: the last of them. -/
def lastByte (src : Memory) : Nat → Nat → Byte → Byte
  | _, 0, d => d
  | a, n + 1, _ => lastByte src (a + 1) n (src.read a)

theorem lastByte_succ (src : Memory) : ∀ (n a : Nat) (d : Byte), lastByte src a (n + 1) d = src.read (a + n)
  | 0, _, _ => rfl
  | n + 1, a, d => by
    rw [lastByte, lastByte_succ src n, Nat.add_right_comm, Nat.add_assoc]

/-- The write part of a COMMIT after its pointer byte: the clock chip is selected and stores the bytes that come. -/
structure Sending (s : State) : Prop extends Attended s where
  bus : s.bus = .mt
  sel : s.sel = s.params.addrClock
  later : s.chipPtrNext = false
  acken : s.acken = false
  done : s.done = true
  status : s.status = statusCode .dwAck

/-- After `n` image bytes from `a` on were sent, each acknowledged (R141). -/
def State.afterTransmit (s : State) (a n : Nat) : State :=
  { s with
    data := lastByte s.img a n s.data, chip := copyBytes s.img a n s.chip, ptr := nextPtr^[n] s.ptr,
    replies := s.replies.drop n, history := (sentTrace s.img a n).reverse ++ s.history }

theorem Sending.afterTransmit {s : State} (h : Sending s) (a n : Nat) : Sending (s.afterTransmit a n) :=
  ⟨h.toAttended.congr rfl rfl rfl rfl rfl rfl, h.bus, h.sel, h.later, h.acken, h.done, h.status⟩

/-- The first byte of the burst. -/
theorem Sending.afterSend_eq {s : State} (h : Sending s) (hptr : s.ptr.toNat ≤ 0x12) :
    s.afterSend (s.img.read s.ptr.toNat) true = s.afterTransmit s.ptr.toNat 1 := by
  rw [afterSend_data _ h.sel h.later hptr, ← h.acken, ← h.status]
  simp [State.afterTransmit, lastByte, copyBytes, sentTrace, h.done]

/-- The rest of the burst. -/
theorem afterTransmit_succ (s : State) (a n : Nat) :
    (s.afterTransmit a 1).afterTransmit (a + 1) n = s.afterTransmit a (n + 1) := by
  simp [State.afterTransmit, lastByte, copyBytes, sentTrace]

theorem runMicros_transmit : ∀ (n a : Nat) {s : State}, Sending s → AllAck n s.replies → (0 < n → s.ptr.toNat = a) →
    a + n ≤ 19 → ∀ ms, runMicros (transmitSteps a n ++ ms) s = runMicros ms (s.afterTransmit a n)
  | 0, _, _, _, _, _, _, _ => rfl
  | n + 1, a, s, h, hack, hptr, hle, ms => by
    obtain ⟨r, hrep, hr, hrest⟩ := hack.succ
    obtain rfl := hptr n.succ_pos
    have hidx := imgIdx_val (a := s.ptr.toNat) (by omega)
    have hsend := runMicros_send h.toAttended h.bus (d := s.img.read s.ptr.toNat) hrep (.inr hr)
      (transmitSteps (s.ptr.toNat + 1) n ++ ms)
    rw [hr, h.afterSend_eq (by omega)] at hsend
    have hfirst : runMicros (transmitSteps s.ptr.toNat (n + 1) ++ ms) s =
        runMicros (transmitSteps (s.ptr.toNat + 1) n ++ ms) (s.afterTransmit s.ptr.toNat 1) := by
      rw [← hsend, transmitSteps, List.cons_append, List.cons_append, List.append_assoc, runMicros_sendImage, hidx]
    rw [hfirst, runMicros_transmit n _ (h.afterTransmit _ 1) (by simpa [State.afterTransmit] using hrest)
      (fun hn => nextPtr_toNat_of_lt (by omega)) (by omega), afterTransmit_succ]

/-! ## The burst of a REFRESH -/

/-- The bytes that a burst of `n` from the pointer `p` on reads, stored from address `a` on (R56, R140). -/
def burstBytes (src : Memory) : Byte → Nat → Nat → Memory → Memory
  | _, _, 0, dst => dst
  | p, a, n + 1, dst => burstBytes src (nextPtr p) (a + 1) n (dst.write a (src.read p.toNat))

theorem read_burstBytes (src : Memory) (b : Nat) : ∀ (n : Nat) (p : Byte) (a : Nat) (dst : Memory),
    (burstBytes src p a n dst).read b =
      if a ≤ b ∧ b < a + n then src.read (nextPtr^[b - a] p).toNat else dst.read b
  | 0, p, a, dst => by rw [burstBytes, if_neg (by omega)]
  | n + 1, p, a, dst => by
    rw [burstBytes, read_burstBytes src b n, Memory.read_write, ← Function.iterate_succ_apply]
    rcases Nat.lt_trichotomy b a with hb | rfl | hb
    · rw [if_neg (by omega), if_neg (by omega), if_neg (by omega)]
    · simp
    · rw [if_neg (by omega : b ≠ a), show (b - (a + 1)).succ = b - a by omega]
      have : (a + 1 ≤ b ∧ b < a + 1 + n) ↔ (a ≤ b ∧ b < a + (n + 1)) := by omega
      simp only [this]

/-- The data phases of a burst of `n` bytes from the pointer `p` on (R140). -/
def burstTrace (src : Memory) (p : Byte) : Nat → List BusEvent
  | 0 => []
  | 1 => [.received (src.read p.toNat) false]
  | n + 2 => .received (src.read p.toNat) true :: burstTrace src (nextPtr p) (n + 1)

theorem burstTrace_eq (src : Memory) : ∀ (n : Nat) {p : Byte}, p.toNat + n ≤ 19 →
    burstTrace src p n = receivedTrace src p.toNat n
  | 0, _, _ => rfl
  | 1, _, _ => rfl
  | n + 2, p, h => by
    have hp := nextPtr_toNat_of_lt (p := p) (by omega)
    rw [burstTrace, receivedTrace, burstTrace_eq src (n + 1) (by omega), hp]

/-- After a byte received from the clock chip and stored at address `a` (R118, R119, R140). -/
def State.afterReceive (s : State) (a : Nat) (ack : Bool) : State :=
  { s with
    data := s.chip.read s.ptr.toNat, acken := ack, status := statusCode (rxStatus ack), bus := if ack then s.bus else .mrLast,
    done := true, ptr := nextPtr s.ptr, img := s.img.write a (s.chip.read s.ptr.toNat),
    history := .received (s.chip.read s.ptr.toNat) ack :: s.history }

/-- The read part of a REFRESH: the clock chip is selected, its pointer inside the register map. -/
structure Receiving (s : State) : Prop extends Attended s where
  bus : s.bus = .mr
  sel : s.sel = s.params.addrClock
  mapped : s.ptr.toNat ≤ 0x12

theorem Receiving.afterReceive {s : State} (h : Receiving s) (a : Nat) : Receiving (s.afterReceive a true) :=
  ⟨h.toAttended.congr rfl rfl rfl rfl rfl rfl, h.bus, h.sel, nextPtr_le h.mapped⟩

/-- A received byte, with the phase of RECV or of RECVLAST. -/
theorem runMicros_receive {m : Micro} {cmd : Instr} {p : Phase} {ack : Bool}
    (hm : ∀ s, microStep m s = launch cmd p (fun s => { s with acken := ack }) s)
    (hp : ∀ s, completePhase p s = completeRx ack s) (hl : legality p .mr = .ok) (hstop : p ≠ .stop)
    {s : State} (h : Receiving s) {a : Nat} (ha : a < 19) (ms : List Micro) :
    runMicros (m :: .awaitDone :: .storeData (imgIdx a) :: ms) s = runMicros ms (s.afterReceive a ack) := by
  have hprep : ({ s with acken := ack } : State) = s.prepare s.data ack p := by
    rw [State.prepare, decide_eq_false hstop, ← h.stopreq]
  rw [runMicros_phase hm h.toAttended (by rw [h.bus]; exact hl) hprep
    ((hp _).trans (completeRx_chip ack (s := (s.prepare s.data ack p).issue p) h.sel h.mapped)) rfl]
  simp only [runMicros, microStep, imgIdx_val ha, State.issue, State.prepare, State.afterReceive, decide_eq_false hstop]
  rw [← h.pend, ← h.stopreq]

/-- After a burst of `n + 1` bytes stored from address `a` on (R140). -/
def State.afterBurst (s : State) (a n : Nat) : State :=
  { s with
    data := s.chip.read (nextPtr^[n] s.ptr).toNat, acken := false, status := statusCode .drNack, bus := .mrLast, done := true,
    ptr := nextPtr^[n + 1] s.ptr, img := burstBytes s.chip s.ptr a (n + 1) s.img,
    history := (burstTrace s.chip s.ptr (n + 1)).reverse ++ s.history }

theorem Attended.afterBurst {s : State} (h : Attended s) (a n : Nat) : Attended (s.afterBurst a n) :=
  h.congr rfl rfl rfl rfl rfl rfl

/-- The rest of the burst. -/
theorem afterBurst_succ (s : State) (a n : Nat) : (s.afterReceive a true).afterBurst (a + 1) n = s.afterBurst a (n + 1) := by
  simp [State.afterBurst, State.afterReceive, burstBytes, burstTrace]

theorem runMicros_burst : ∀ (n a : Nat) {s : State}, Receiving s → a + n < 19 →
    ∀ ms, runMicros (receiveSteps a (n + 1) ++ ms) s = runMicros ms (s.afterBurst a n)
  | 0, a, _, h, hle, ms => runMicros_receive microStep_recvLast (fun _ => rfl) rfl Phase.noConfusion h hle ms
  | n + 1, a, s, h, hle, ms => by
    rw [receiveSteps, List.cons_append, List.cons_append, List.cons_append,
      runMicros_receive microStep_recv (fun _ => rfl) rfl Phase.noConfusion h (by omega),
      runMicros_burst n (a + 1) (h.afterReceive a) (by omega), afterBurst_succ]

end Sys2Proof.Machine
end

section
/-! REFRESH and COMMIT of a valid range in a quiet, served state (R140 to R145): with a clock chip that acknowledges, with nobody
at its address, and with a NACK that goes unnoticed. -/

namespace Sys2Proof.Machine

/-! ## The opening both commands share -/

/-- BEGIN to the clock chip for writing, and the pointer byte (R140, R141). -/
def openingSteps (clock : BusAddr) (start : Byte) : List Micro := beginSteps clock false ++ .sendByte start :: waitSteps

theorem refreshSteps_eq (clock : BusAddr) (start count : Byte) :
    refreshSteps clock start count =
      openingSteps clock start ++ (beginSteps clock true ++ (receiveSteps start.toNat count.toNat ++ endSteps)) := by
  simp [refreshSteps, openingSteps]

theorem commitSteps_eq (clock : BusAddr) (start count : Byte) :
    commitSteps clock start count =
      openingSteps clock start ++ (transmitSteps start.toNat count.toNat ++ endSteps) := by
  simp [commitSteps, openingSteps]

/-- Both range commands of a valid range open so. -/
theorem exec_opens {start count : Byte} {i : Instr} (hv : validRange start count = true)
    (hi : i = .refresh start count ∨ i = .commit start count) (s : State) :
    ∃ ms, exec i s = perform (openingSteps s.params.addrClock start ++ ms) s := by
  obtain rfl | rfl := hi
  · exact ⟨_, (exec_refresh_of_valid hv s).trans (by rw [refreshSteps_eq])⟩
  · exact ⟨_, (exec_commit_of_valid hv s).trans (by rw [commitSteps_eq])⟩

/-- After the opening with this answer to the pointer byte. -/
def State.afterOpening (s : State) (start : Byte) (ack : Bool) : State :=
  { s with
    data := start, acken := false, done := true, status := statusCode (if ack then .dwAck else .dwNack),
    bus := if ack then .mt else .nacked, sel := s.params.addrClock, ptr := if ack then start else s.ptr,
    chipPtrNext := !ack, replies := s.replies.drop 2,
    history := .sent start ack :: .addr s.params.addrClock false true :: .start (s.bus != .idle) :: s.history }

theorem Attended.afterOpening {s : State} (h : Attended s) (start : Byte) (ack : Bool) : Attended (s.afterOpening start ack) :=
  h.congr rfl rfl rfl rfl rfl rfl

theorem afterSend_afterBegin (s : State) (start : Byte) (ack : Bool) :
    (s.afterBegin s.params.addrClock false true).afterSend start ack = s.afterOpening start ack := by
  have hfirst : (s.afterBegin s.params.addrClock false true).chipPtrNext = true := by
    simp [State.afterBegin, State.afterAddr, State.afterStart]
  have htail : s.replies.tail.tail = s.replies.drop 2 := by rw [← List.drop_one, ← List.drop_one, List.drop_drop]
  cases ack with
  | true =>
    rw [afterSend_pointer start rfl hfirst]
    simp [State.afterBegin, State.afterAddr, State.afterStart, State.afterOpening, htail]
  | false =>
    rw [afterSend_nacked]
    simp [State.afterBegin, State.afterAddr, State.afterStart, State.afterOpening, htail]

theorem runMicros_opening {s : State} (h : Attended s) (hl : legality .start s.bus = .ok) {r r' : Reply} {rs : List Reply}
    (hrep : s.replies = r :: r' :: rs) (hack : r.ack = true) (hn : s.params.nackCompletes = true ∨ r'.ack = true)
    (start : Byte) (ms : List Micro) :
    runMicros (openingSteps s.params.addrClock start ++ ms) s = runMicros ms (s.afterOpening start r'.ack) := by
  have hbegin := runMicros_begin h hl hrep (.inr hack) s.params.addrClock false (.sendByte start :: (waitSteps ++ ms))
  have hrep' : (s.afterBegin s.params.addrClock false true).replies = r' :: rs := by
    simp [State.afterBegin, State.afterAddr, State.afterStart, hrep]
  rw [hack] at hbegin
  have hsend := runMicros_send (h.afterBegin s.params.addrClock false true) rfl (d := start) hrep' hn ms
  rw [afterSend_afterBegin] at hsend
  rw [← hsend, ← hbegin]
  simp [openingSteps]

/-! ## COMMIT -/

theorem sending_afterOpening {s : State} (h : Attended s) (start : Byte) : Sending (s.afterOpening start true) :=
  ⟨h.afterOpening start true, rfl, rfl, rfl, rfl, rfl, rfl⟩

/-- The opening and the bytes of a COMMIT, all acknowledged. -/
theorem runMicros_commit {s : State} (h : Attended s) (hl : legality .start s.bus = .ok) {start : Byte} {n : Nat}
    (hle : start.toNat + n ≤ 19) (hack : AllAck (2 + n) s.replies) (ms : List Micro) :
    runMicros (openingSteps s.params.addrClock start ++ (transmitSteps start.toNat n ++ ms)) s =
      runMicros ms ((s.afterOpening start true).afterTransmit start.toNat n) := by
  obtain ⟨r, hrep, hr, hack'⟩ := (hack.mono (by omega : 1 + 1 ≤ 2 + n)).succ
  obtain ⟨r', hrep', hr', _⟩ := hack'.succ
  rw [hrep'] at hrep
  rw [runMicros_opening h hl hrep hr (.inr hr'), hr']
  exact runMicros_transmit n _ (sending_afterOpening h start) hack.drop (fun _ => rfl) hle ms

/-- Settles O46: the opening, the burst and END. -/
theorem commitWritesTheRange : Obligations.CommitWritesTheRange := by
  intro s start count hv hready hs hacks
  obtain ⟨hq, hl⟩ := (readyToStart_iff s).mp hready
  have h := (Attended.of_quiet hq hs).withRsp none
  obtain ⟨hpos, hle⟩ := (validRange_iff start count).mp hv
  obtain ⟨n, hn⟩ := Nat.exists_eq_add_of_le' hpos
  have hrun := runMicros_commit h hl hle ((acksNext_iff s _).mp hacks) endSteps
  have hsending := (sending_afterOpening h start).afterTransmit start.toNat count.toNat
  rw [runMicros_end hsending.toAttended (.inl hsending.bus)] at hrun
  refine ⟨_, ((exec_commit_of_valid hv s).trans (by rw [commitSteps_eq])).trans (perform_of_done hrun), fun a => ?_, ?_⟩
  · simp [State.afterStop, State.finish, State.afterTransmit, State.afterOpening, read_copyBytes, inRange]
  · have hdata : lastByte s.img start.toNat count.toNat start = s.img.read (start.toNat + count.toNat - 1) := by
      rw [hn, lastByte_succ]; rfl
    simp [State.afterStop, State.finish, State.afterTransmit, State.afterOpening, hdata, iterate_nextPtr_range hv, commitTrace,
      statusCode]

/-! ## REFRESH -/

/-- Before the burst of a REFRESH: the opening with this answer to the pointer byte, and BEGIN for reading. -/
def State.beforeBurst (s : State) (start : Byte) (ack : Bool) : State :=
  (s.afterOpening start ack).afterBegin s.params.addrClock true true

theorem receiving_beforeBurst {s : State} (h : Attended s) {start : Byte} {ack : Bool}
    (hp : (if ack then start else s.ptr).toNat ≤ 0x12) : Receiving (s.beforeBurst start ack) :=
  ⟨(h.afterOpening start ack).afterBegin _ _ _, rfl, rfl, hp⟩

/-- A REFRESH whose addresses are acknowledged, with this answer to the pointer byte. -/
theorem runMicros_refresh {s : State} (h : Attended s) (hl : legality .start s.bus = .ok) {start count : Byte} {n : Nat}
    {r1 r2 r3 : Reply} {rs : List Reply} (hn : count.toNat = n + 1) (hle : start.toNat + count.toNat ≤ 19)
    (hrep : s.replies = r1 :: r2 :: r3 :: rs) (h1 : r1.ack = true) (h3 : r3.ack = true)
    (hc : s.params.nackCompletes = true ∨ r2.ack = true) (hp : (if r2.ack then start else s.ptr).toNat ≤ 0x12) :
    runMicros (refreshSteps s.params.addrClock start count) s =
      .done ((s.beforeBurst start r2.ack).afterBurst start.toNat n).afterStop := by
  have hlegal : legality .start (s.afterOpening start r2.ack).bus = .ok := by cases r2.ack <;> rfl
  have hreceiving := receiving_beforeBurst h hp
  have hbegin := runMicros_begin (h.afterOpening start r2.ack) hlegal (r := r3) (rs := rs) (by simp [State.afterOpening, hrep])
    (.inr h3) s.params.addrClock true (receiveSteps start.toNat count.toNat ++ endSteps)
  rw [h3] at hbegin
  rw [refreshSteps_eq, runMicros_opening h hl hrep h1 hc, hbegin, hn]
  exact (runMicros_burst n start.toNat hreceiving (by omega) endSteps).trans
    (runMicros_end (hreceiving.toAttended.afterBurst _ _) (.inr (.inl rfl)))

/-- Settles O45: the opening, BEGIN for reading, the burst from the pointer just sent, and END. -/
theorem refreshCopiesTheRange : Obligations.RefreshCopiesTheRange := by
  intro s start count hv hready hs hacks
  obtain ⟨hq, hl⟩ := (readyToStart_iff s).mp hready
  have h := (Attended.of_quiet hq hs).withRsp none
  obtain ⟨hpos, hle⟩ := (validRange_iff start count).mp hv
  obtain ⟨n, hn⟩ := Nat.exists_eq_add_of_le' hpos
  obtain ⟨r1, hrep1, h1, hacks1⟩ := ((acksNext_iff s _).mp hacks).succ
  obtain ⟨r2, hrep2, h2, hacks2⟩ := hacks1.succ
  obtain ⟨r3, hrep3, h3, _⟩ := hacks2.succ
  rw [hrep3] at hrep2
  rw [hrep2] at hrep1
  have hp : start.toNat ≤ 0x12 := by omega
  have hrun := runMicros_refresh h hl hn hle hrep1 h1 h3 (.inr h2) (by rw [h2]; exact hp)
  rw [h2] at hrun
  refine ⟨_, (exec_refresh_of_valid hv s).trans (perform_of_done hrun), fun a => ?_, ?_⟩
  · simp only [State.afterStop, State.finish, State.afterBurst, State.beforeBurst, State.afterBegin, State.afterAddr,
      State.afterStart, State.afterOpening, read_burstBytes, inRange, if_true, ← hn]
    by_cases ha : start.toNat ≤ a ∧ a < start.toNat + count.toNat
    · rw [if_pos ha, iterate_nextPtr_toNat (by omega), Nat.add_sub_cancel' ha.1]
      simp [ha]
    · rw [if_neg ha]
      simp [ha]
  · have hlast : (nextPtr^[n] start).toNat = start.toNat + count.toNat - 1 := by
      rw [iterate_nextPtr_toNat (by omega), hn]; rfl
    have htail : (s.replies.drop 2).tail = s.replies.drop 3 := by rw [← List.drop_one, List.drop_drop]
    simp [State.afterStop, State.finish, State.afterBurst, State.beforeBurst, State.afterBegin, State.afterAddr, State.afterStart,
      State.afterOpening, hlast, htail, ← hn, iterate_nextPtr_range hv, burstTrace_eq _ _ hle, refreshTrace, statusCode]

/-! ## One after the other -/

theorem inRange_iff (start count : Byte) (a : Nat) :
    inRange start count a = true ↔ start.toNat ≤ a ∧ a < start.toNat + count.toNat := by
  simp [inRange]

/-- What a REFRESH leaves (R140). -/
structure RefreshedFrom (s : State) (start count : Byte) (t : State) : Prop where
  cmdReady : t.cmdReady = true
  ready : t.readyToStart = true
  served : t.served = true
  params : t.params = s.params
  chip : t.chip = s.chip
  replies : t.replies = s.replies.drop 3
  img : ∀ a, t.img.read a = if inRange start count a then s.chip.read a else s.img.read a

theorem exec_refresh_refreshed {s : State} {start count : Byte} (hv : validRange start count = true)
    (hready : s.readyToStart = true) (hs : s.served = true) (hacks : AllAck 3 s.replies) :
    ∃ t, exec (.refresh start count) s = .next t ∧ RefreshedFrom s start count t := by
  obtain ⟨t, ht, himg, heq⟩ := refreshCopiesTheRange s start count hv hready hs ((acksNext_iff s 3).mpr hacks)
  have hq := ((readyToStart_iff s).mp hready).1
  refine ⟨t, ht, ?_, ?_, ?_, ?_, ?_, ?_, himg⟩
  · rw [heq]; rfl
  · rw [heq]; exact (readyToStart_iff _).mpr ⟨hq, rfl⟩
  · rw [heq]; exact hs
  · rw [heq]
  · rw [heq]
  · rw [heq]

/-- Settles O47: the COMMIT writes back the bytes that the REFRESH fetched. -/
theorem refreshThenCommitIsNoOpOnTheChip : Obligations.RefreshThenCommitIsNoOpOnTheChip := by
  intro s start count hv hready hs hacks
  have hall : AllAck (3 + (2 + count.toNat)) s.replies := (acksNext_iff s _).mp (by rw [← hacks]; congr 1; omega)
  obtain ⟨t, ht, hr⟩ := exec_refresh_refreshed (count := count) hv hready hs (hall.mono (by omega))
  obtain ⟨u, hu, hchip, heq⟩ := commitWritesTheRange t start count hv hr.ready hr.served
    ((acksNext_iff t _).mpr (hr.replies ▸ hall.drop))
  refine ⟨t, u, ht, hr.cmdReady, hu, by rw [heq]; rfl, fun a => ?_⟩
  rw [hchip, hr.img, hr.chip]
  split <;> rfl

/-- Writing 0 to A2F, bit 1 of its byte (R168). -/
theorem insertField_alarm2Flag (x : Byte) : insertField ⟨0x0F, 1, 1⟩ x 0 = x &&& 0xFD := by
  revert x
  decide

/-- Settles O48: the SETF clears the bit in the image between the REFRESH and the COMMIT. -/
theorem clearingTheAlarmFlagClearsOneBit : Obligations.ClearingTheAlarmFlagClearsOneBit := by
  intro s hready hs hacks hrow
  have hv : validRange 0x0F 1 = true := by decide
  have hall : AllAck (3 + 3) s.replies := (acksNext_iff s 6).mp hacks
  obtain ⟨t, ht, hr⟩ := exec_refresh_refreshed hv hready hs (hall.mono (by omega))
  have hrow' : fieldDesc t.params.ft .a2F = ⟨0x0F, 1, 1⟩ := hr.params ▸ hrow
  have hset := exec_setfOf_fits (f := .a2F) (v := 0) (s := t) (by rw [hrow']; decide)
  rw [hrow'] at hset
  obtain ⟨u, hu, hchip, heq⟩ := commitWritesTheRange
    (State.finish { t with img := writeField ⟨0x0F, 1, 1⟩ 0 t.img } 0) 0x0F 1 hv hr.ready hr.served
    ((acksNext_iff _ _).mpr (by exact hr.replies ▸ hall.drop))
  have huready : u.cmdReady = true := by rw [heq]; rfl
  refine ⟨u, ?_, huready, fun a => ?_⟩
  · rw [clearAlarm2Flag, hostIssues_cons_ready (i := refreshNamed .cstatus) ht hr.cmdReady,
      hostIssues_cons_ready (i := .setfA2F 0) hset rfl, hostIssues_cons_ready (i := commitNamed .cstatus) hu huready]
    rfl
  · have hin : inRange 0x0F 1 a = true ↔ a = 0x0F := by
      rw [inRange_iff]
      exact ⟨fun h => Nat.le_antisymm (Nat.le_of_lt_succ h.2) h.1, fun h => h ▸ ⟨Nat.le_refl _, Nat.lt_succ_self _⟩⟩
    rw [hchip]
    by_cases ha : a = 0x0F
    · have hbyte := read_writeField_same ⟨0x0F, 1, 1⟩ 0 t.img
      rw [if_pos (hin.mpr ha), if_pos ha, ha]
      refine hbyte.trans ?_
      rw [insertField_alarm2Flag]
      exact congrArg (· &&& 0xFD) ((hr.img 0x0F).trans (if_pos (by decide)))
    · rw [if_neg (fun h => ha (hin.mp h)), if_neg ha]
      exact congrArg (Memory.read · a) hr.chip

/-! ## Nobody at the address -/

/-- Where `NACK_COMPLETES`, the NACK of the address goes unnoticed and the pointer byte wedges (R127, R145). -/
theorem runMicros_opening_wedges {s : State} (h : Attended s) (hl : legality .start s.bus = .ok) {r : Reply} {rs : List Reply}
    (hrep : s.replies = r :: rs) (hr : r.ack = false) (hn : s.params.nackCompletes = true) (start : Byte) (ms : List Micro) :
    runMicros (openingSteps s.params.addrClock start ++ ms) s =
      runMicros (.awaitDone :: ms)
        (((s.afterBegin s.params.addrClock false false).prepare start false .tx).issue .tx).wedge := by
  have hbegin := runMicros_begin h hl hrep (.inl hn) s.params.addrClock false (.sendByte start :: (waitSteps ++ ms))
  rw [hr] at hbegin
  have h' := h.afterBegin s.params.addrClock false false
  have hprep : ({ s.afterBegin s.params.addrClock false false with data := start, acken := false } : State) =
      (s.afterBegin s.params.addrClock false false).prepare start false .tx := by
    rw [← set_stopreq_false h'.stopreq]; rfl
  have hsend := (runMicros_launch_wedge (microStep_sendByte start) (ms := waitSteps ++ ms) h'.quiet rfl).trans
    (runMicros_requireEnabled h'.en)
  rw [hprep] at hsend
  refine Eq.trans ?_ (hbegin.trans hsend)
  simp [openingSteps]

/-- A START completed and the address phase issued (R115, R116, R130). -/
def State.atAddress (s : State) (addr : BusAddr) (read : Bool) : State :=
  { s.afterStart with data := addressByte addr read }.issue .addr

/-- An opening comes to the await of its address phase. -/
theorem runMicros_opening_addr {s : State} (h : Attended s) (hl : legality .start s.bus = .ok) (start : Byte)
    (ms : List Micro) :
    runMicros (openingSteps s.params.addrClock start ++ ms) s =
      runMicros (.awaitDone :: .sendByte start :: (waitSteps ++ ms)) (s.atAddress s.params.addrClock false) := by
  have h' : Attended { s.afterStart with data := addressByte s.params.addrClock false } :=
    h.afterStart.congr rfl rfl rfl rfl rfl rfl
  have hload : microStep (.setAddr s.params.addrClock false) s.afterStart =
      .go { s.afterStart with data := addressByte s.params.addrClock false } :=
    loadAddress_eq _ _ _ h'.en ((busy_false_iff _).mpr ⟨h'.pend, h'.stopreq⟩)
  have hstart := runMicros_start h hl
    (.setAddr s.params.addrClock false :: .xferAddr :: (waitSteps ++ .sendByte start :: (waitSteps ++ ms)))
  have haddr := (runMicros_launch microStep_xferAddr (ms := waitSteps ++ .sendByte start :: (waitSteps ++ ms)) h'.quiet rfl).trans
    (runMicros_requireEnabled h'.en)
  refine Eq.trans ?_ (hstart.trans ((runMicros_cons_go hload).trans haddr))
  simp [openingSteps, beginSteps]

/-- Where a NACK does not complete, the Engine's step at the address phase wedges (R122, R127). -/
theorem dueStep_atAddress {s : State} (h : Attended s) {r : Reply} {rs : List Reply} (hrep : s.replies = r :: rs)
    (hr : r.ack = false) (hn : s.params.nackCompletes = false) (addr : BusAddr) (read : Bool) :
    dueStep (s.atAddress addr read) =
      { s.atAddress addr read with
        wedged := true, replies := rs, history := .addr addr read false :: s.afterStart.history, chipPtrNext := false } := by
  have haddr : addressOf (s.atAddress addr read).data = addr := addressOf_addressByte addr read
  have hread : directionOf (s.atAddress addr read).data = read := directionOf_addressByte addr read
  have hreplies : (s.atAddress addr read).replies = r :: rs := hrep
  have hanswer : addrAnswer (s.atAddress addr read) (addressOf (s.atAddress addr read).data)
      (directionOf (s.atAddress addr read).data) = false := (addrAnswer_of_reply hreplies _ _).trans hr
  have hfair : (s.atAddress addr read).fair = true := ((served_iff s).mp h.served).2
  rw [dueStep_of_fair hfair, engineStep_of_pend (s := s.atAddress addr read) h.en h.wedged rfl, completePhase,
    completeAddr_nacked hanswer, completeNacked_of_wedges _ (by exact hn), haddr, hread, hreplies]
  rfl

/-- Settles O49: the wedge is at the pointer byte where a NACK completes, and at the address phase where it does not. -/
theorem rangeCommandsHangWithoutTheChip : Obligations.RangeCommandsHangWithoutTheChip := by
  intro s start count r rs i hv hready hs hrep hr hi
  obtain ⟨hq, hl⟩ := (readyToStart_iff s).mp hready
  have h := (Attended.of_quiet hq hs).withRsp none
  have hsettled : s.settled = true := ((served_iff s).mp hs).1
  obtain ⟨ms, hexec⟩ := exec_opens hv hi s
  cases hn : s.params.nackCompletes with
  | true =>
    obtain ⟨he, hh⟩ := perform_hangs awaitDone_awaits (s := s) (runMicros_opening_wedges h hl hrep hr hn start ms)
      ((settled_congr rfl).trans hsettled) rfl rfl (dueStep_of_no_step (.inr (.inr (.inl rfl)))) rfl
      (dueStep_of_no_step (.inr (.inr (.inl rfl))))
    exact ⟨_, hexec.trans he, rfl, rfl, rfl, rfl, hh, fun _ => ⟨rfl, rfl, rfl, rfl⟩, fun h => absurd h Bool.noConfusion⟩
  | false =>
    obtain ⟨he, hh⟩ := perform_hangs awaitDone_awaits (s := s) (runMicros_opening_addr h hl start ms)
      ((settled_congr rfl).trans hsettled) rfl rfl (dueStep_atAddress h hrep hr hn _ _) rfl
      (dueStep_of_no_step (.inr (.inr (.inl rfl))))
    exact ⟨_, hexec.trans he, rfl, rfl, rfl, rfl, hh, fun h => absurd h Bool.noConfusion, fun _ => ⟨rfl, rfl⟩⟩

/-! ## A NACK that goes unnoticed -/

/-- Settles O50: the burst of the REFRESH runs from the pointer the chip had. -/
theorem refreshAfterNackedPointerReadsFromTheOldPointer : Obligations.RefreshAfterNackedPointerReadsFromTheOldPointer := by
  intro s start count r1 r2 r3 rs hv hready hs hn hptr hrep h1 h2 h3
  obtain ⟨hq, hl⟩ := (readyToStart_iff s).mp hready
  have h := (Attended.of_quiet hq hs).withRsp none
  obtain ⟨hpos, hle⟩ := (validRange_iff start count).mp hv
  obtain ⟨n, hcount⟩ := Nat.exists_eq_add_of_le' hpos
  have hrun := runMicros_refresh h hl hcount hle hrep h1 h3 (.inl hn) (by rw [h2]; exact hptr)
  rw [h2] at hrun
  refine ⟨_, (exec_refresh_of_valid hv s).trans (perform_of_done hrun), rfl, rfl, fun k hk => ?_⟩
  have hread := read_burstBytes s.chip (start.toNat + k) (n + 1) s.ptr start.toNat s.img
  rw [if_pos (by omega), Nat.add_sub_cancel_left] at hread
  exact hread

/-- The last byte of a COMMIT on its own. -/
theorem transmitSteps_succ : ∀ (n a : Nat),
    transmitSteps a (n + 1) = transmitSteps a n ++ .sendImage (imgIdx (a + n)) :: waitSteps
  | 0, _ => rfl
  | n + 1, a => by
    rw [transmitSteps, transmitSteps_succ n, Nat.add_right_comm]
    simp [transmitSteps, Nat.add_assoc]

/-- Settles O51: the bytes before the last are stored, the last one is not, and END follows from `Nacked`. -/
theorem commitWithLastByteNackedCompletes : Obligations.CommitWithLastByteNackedCompletes := by
  intro s start count acks r rs hv hready hs hn hrep hlen hacks hr
  obtain ⟨hq, hl⟩ := (readyToStart_iff s).mp hready
  have h := (Attended.of_quiet hq hs).withRsp none
  obtain ⟨hpos, hle⟩ := (validRange_iff start count).mp hv
  obtain ⟨n, hcount⟩ := Nat.exists_eq_add_of_le' hpos
  have hall : AllAck (2 + n) s.replies := by
    have hlen' : acks.length = 2 + n := by omega
    rw [hrep, ← hlen']
    refine ⟨by simp, fun x hx => List.all_eq_true.mp hacks x ?_⟩
    rwa [List.take_left] at hx
  have hsending := (sending_afterOpening h start).afterTransmit start.toNat n
  have hrest : ((State.afterOpening { s with rsp := none } start true).afterTransmit start.toNat n).replies = r :: rs := by
    simp only [State.afterTransmit, State.afterOpening, List.drop_drop, hrep]
    exact List.drop_left' (by omega)
  have hsend := runMicros_send hsending.toAttended hsending.bus (d := s.img.read (start.toNat + n)) hrest (.inl hn) endSteps
  rw [hr] at hsend
  have hrun := runMicros_commit h hl (start := start) (n := n) (by omega) hall
    (.sendImage (imgIdx (start.toNat + n)) :: (waitSteps ++ endSteps))
  rw [runMicros_sendImage, imgIdx_val (by omega)] at hrun
  have hend := runMicros_end (hsending.toAttended.afterSend (s.img.read (start.toNat + n)) false) (.inr (.inr rfl))
  have hsteps : commitSteps s.params.addrClock start count = openingSteps s.params.addrClock start ++
      (transmitSteps start.toNat n ++ (.sendImage (imgIdx (start.toNat + n)) :: (waitSteps ++ endSteps))) := by
    rw [commitSteps_eq, hcount, transmitSteps_succ]
    simp
  refine ⟨_, ((exec_commit_of_valid hv s).trans (by rw [hsteps])).trans (perform_of_done (hrun.trans (hsend.trans hend))),
    rfl, rfl, fun a => ?_⟩
  simp only [afterSend_nacked, State.afterStop, State.finish, State.afterTransmit, State.afterOpening, read_copyBytes, inRange]
  congr 1
  simp only [Bool.and_eq_true, decide_eq_true_eq, eq_iff_iff]
  omega

end Sys2Proof.Machine
end
